-- ==== Sys2Proof/Word.lean ====
section
/-! DEFINITION. The block's bit-vector types (00_scope.md R7, R12; 10_state.md R30; 30_encoding.md R100). -/

namespace Sys2Proof

/-- A Word of the SampleRing, held at the widest `WORD_BITS` the block allows (R6, R7); in a build of
`WORD_BITS = WB` every Word is below `2 ^ WB`. -/
abbrev Word := BitVec 24

/-- One byte of the BitRing (R39). -/
abbrev Byte := BitVec 8

/-- A ring cursor (R30: 16 bits). -/
abbrev Cursor := BitVec 16

/-- A command word (R100). -/
abbrev CommandWord := BitVec 32

/-- A response word (R104). -/
abbrev ResponseWord := BitVec 32

end Sys2Proof
end

