-- ==== Sys2Proof/Config.lean ====
section
/-! DEFINITION. The build parameters of the block (00_scope.md R2, R6, R9) and the value the spec leaves
free (10_state.md R50). The parameters are plain data carried by the state and changed by no step; statements
about the block hold for every well-formed configuration. -/

namespace Sys2Proof

/-- The two operating modes, one per build (R2). -/
inductive Mode where
  | emitter
  | receiver
  deriving DecidableEq, Repr

/-- The parameter `FLIP_INDEX` (R6, R158): the spec's default, or another function of (WB, done, k, r) with values
in 0..7. A build has one WB, so such a function is its table of values over done, k in 1..8 and r in 0..23, in the
order `Machine.flipEntry` reads it. -/
inductive FlipIndex where
  | specDefault
  | table (entries : List (BitVec 3))
  deriving DecidableEq, Repr

/-- The build parameters (R6). -/
structure Config where
  /-- `MODE`. -/
  mode : Mode
  /-- `WORD_BITS`. -/
  wordBits : Nat
  /-- `SYNC_SIGNAL`. -/
  syncSignal : Byte
  /-- `SYNC_PERIOD`. -/
  syncPeriod : Nat
  /-- `L_s`. -/
  capS : Nat
  /-- `L_b`. -/
  capB : Nat
  /-- `FLIP_INDEX`. -/
  flip : FlipIndex
  deriving DecidableEq, Repr

/-- The source's defaults of R6 with the ring capacities, and the notation `E()`, of 95_test_vectors.md.
DESIGN CHOICE (log 3), unsafe: R6 gives `MODE`, `L_s` and `L_b` no default. -/
def Config.example : Config where
  mode := .emitter
  wordBits := 12
  syncSignal := 0xFF
  syncPeriod := 64
  capS := 8
  capB := 8
  flip := .specDefault

/-- FREE VALUE (R50, D24; log 5), safe: what slot `slot` of the ring of `w`-bit slots holds after reset number
`era`. It has no body, so nothing can be proved of it. -/
opaque Config.powerOnSlot (w : Nat) (era slot : Nat) : BitVec w

end Sys2Proof
end

