-- ==== Sys2Proof/Syntax.lean ====
section
/-! DEFINITION. The commands of the block, one constructor per row of spec/opcode_table.json (30_encoding.md R101
to R103). An operand is held at the full width of its field; which of its values are legal in a build is
WellFormed.lean's to say. -/

namespace Sys2Proof

/-- The command set (R103). -/
inductive Instr where
  /-- START, format N, OP 0x01 (R132). -/
  | start
  /-- STOP, format N, OP 0x02 (R136). -/
  | stop
  /-- RESTART, format N, OP 0x03 (R138). -/
  | restart
  /-- UPDATE, format N, OP 0x04 (R150). -/
  | update
  /-- PUSHW, format W, OP 0x10, `WORD` = OPND[23:0] (R211). -/
  | pushw (word : Word)
  /-- POPW, format N, OP 0x11 (R214). -/
  | popw
  /-- PUSHB, format B, OP 0x12, `BYTE` = OPND[7:0] (R213). -/
  | pushb (byte : Byte)
  /-- POPB, format N, OP 0x13 (R212). -/
  | popb
  /-- RDREG, format R, OP 0x20, `REG` = OPND[7:0] (R230). -/
  | rdreg (reg : BitVec 8)
  /-- PEEKW, format S, OP 0x21, `SLOT` = OPND[15:0] (R232). -/
  | peekw (slot : BitVec 16)
  /-- PEEKB, format S, OP 0x22, `SLOT` = OPND[15:0] (R233). -/
  | peekb (slot : BitVec 16)
  deriving DecidableEq, Repr

end Sys2Proof
end

