-- ==== Sys2Proof/WellFormed.lean ====
section
/-! DEFINITION. Which configurations may be elaborated (00_scope.md R6, R8) and which operand values are legal in a
build (30_encoding.md R101, R107 items 2 to 4). -/

namespace Sys2Proof

/-- A `FLIP_INDEX` table gives a value for each `done`, each `k` in 1..8 and each `r` in 0..23 (R158). -/
def FlipIndex.wellFormed : FlipIndex → Bool
  | .specDefault => true
  | .table entries => entries.length == 384

/-- Every parameter lies in its legal range (R6, R8). `SYNC_SIGNAL` is a byte by its type. The check
`L_b ≥ 1 + ceil(WB/8)` is left out on purpose: START makes it (R8, R131). -/
abbrev Config.WellFormed (c : Config) : Prop :=
  (1 ≤ c.wordBits ∧ c.wordBits ≤ 24) ∧
  (2 ≤ c.syncPeriod ∧ c.syncPeriod ≤ 65535) ∧
  (2 ≤ c.capS ∧ c.capS ≤ 65535) ∧
  (2 ≤ c.capB ∧ c.capB ≤ 65535) ∧
  c.flip.wellFormed = true

/-- The operand is a legal value in a build (R107 items 2 to 4). -/
def Instr.wellFormed (c : Config) : Instr → Bool
  | .start => true
  | .stop => true
  | .restart => true
  | .update => true
  | .pushw word => decide (word.toNat < 2 ^ c.wordBits)
  | .popw => true
  | .pushb _ => true
  | .popb => true
  | .rdreg reg => decide (reg.toNat ≤ 0x0F)
  | .peekw slot => decide (slot.toNat < c.capS)
  | .peekb slot => decide (slot.toNat < c.capB)

end Sys2Proof
end

