-- ==== Sys2Proof/Machine/State.lean ====
section
/-! DEFINITION. The state of the block (10_state.md R30, exactly), the model's own fields beside it, the reasons a
step can stop, and the state after reset (R50, 70_reset_and_hazards.md R280). -/

namespace Sys2Proof.Machine

/-- The values of a ring's `STATE` (R37). -/
inductive RingState where
  | inactive
  | active
  /-- Named by the source, never held between two commands (R37, D21; log 17). -/
  | busy
  deriving DecidableEq, Repr

/-- What a slot that no command has written since reads as. -/
inductive Fill where
  /-- After START's zero-fill (R132). -/
  | zero
  /-- After reset number `era`, before any START: the free power-on value, in the range of `bits` bits (R50). -/
  | powerOn (era bits : Nat)
  deriving DecidableEq, Repr

/-- A storage space of `w`-bit slots (20_memory.md R70): the slots that differ from the fill, by rising slot index.
For the BitRing the entries are `Host.Cell`s. The capacity is a build parameter and not repeated here. -/
structure Memory (w : Nat) where
  cells : List (Nat × BitVec w)
  fill : Fill
  deriving DecidableEq, Repr

/-- Why the machine stops. -/
inductive Fault where
  /-- Raised by UPDATE alone, in a state that R30 rules out at a boundary: a cursor outside its ring or `SR.BITS`
  outside 0..WB-1. No rule of the spec gives such a state a next one, and no run reaches one. Safe (log 8). -/
  | outOfRangeState
  deriving DecidableEq, Repr

/-- Why the machine gives a command no meaning. -/
inductive Refusal where
  /-- An instruction with no meaning yet; raised in the dispatch only. Safe. -/
  | notModelled (mnemonic : String)
  /-- Raised by every command and every step in a configuration that is not well-formed, which a model must not
  give any behaviour (R8). Safe (log 9). -/
  | illFormedConfig
  deriving DecidableEq, Repr

/-- The state: the elements of R30, then the build parameters and the model's own fields (log 1, 2, 3, 5, 6). -/
structure State where
  /-- `SR.buf`. -/
  srBuf : Memory 24
  /-- `SR.WR`, the last slot written (R34). -/
  srWr : Cursor
  /-- `SR.RD`, the last slot consumed (R35). -/
  srRd : Cursor
  /-- `SR.BITS` (R36). -/
  srBits : BitVec 5
  /-- `SR.STATE` (R37). -/
  srState : RingState
  /-- `BR.buf`. -/
  brBuf : Memory 8
  /-- `BR.WR`, the last slot written (R40). -/
  brWr : Cursor
  /-- `BR.RD`, the last slot fully consumed (R41). -/
  brRd : Cursor
  /-- `BR.BIT` (R42). -/
  brBit : BitVec 3
  /-- `BR.SYNC` (R43). -/
  brSync : Bool
  /-- `BR.BSS` (R44). -/
  brBss : BitVec 16
  /-- `BR.STATE` (R37). -/
  brState : RingState
  /-- `ENC.ACC` (R45). -/
  encAcc : Byte
  /-- `SES.STARTED` (R46). -/
  started : Bool
  /-- The build parameters (R6); not state by R51, changed by no step. -/
  cfg : Config
  /-- The model's own: the command words not yet taken, in the arbiter's order (R90). -/
  pending : List CommandWord
  /-- The model's own: the reset input (R280). -/
  resetLine : Bool
  /-- The model's own: the response of the step just taken, if it took a command (R104). -/
  response : Option ResponseWord
  /-- The model's own: the number of resets so far, the argument of the free power-on contents (R50). -/
  powerOns : Nat
  deriving DecidableEq, Repr

/-- The block of configuration `c` right after reset number `era` (R50, R280): every cursor, counter and flag 0, both
rings Inactive, the buffers free, nothing pending and nothing answered. -/
def State.powerOn (c : Config) (era : Nat) : State where
  srBuf := ⟨[], .powerOn era c.wordBits⟩
  srWr := 0
  srRd := 0
  srBits := 0
  srState := .inactive
  brBuf := ⟨[], .powerOn era 8⟩
  brWr := 0
  brRd := 0
  brBit := 0
  brSync := false
  brBss := 0
  brState := .inactive
  encAcc := 0
  started := false
  cfg := c
  pending := []
  resetLine := false
  response := none
  powerOns := era

/-- The machine right after reset, in the configuration of log 3. -/
def State.reset : State := State.powerOn Config.example 0

end Sys2Proof.Machine
end

