-- ==== Sys2Proof/Machine/Flags.lean ====
section
/-! DEFINITION. The status codes and the response word (60_exceptions.md R250, R256; 30_encoding.md R104, R105). The
block has no condition codes (10_state.md R49): these are all its "flags". -/

namespace Sys2Proof.Machine

/-- The values of the `STATUS` field (R250). -/
inductive Status where
  | ok
  | syncWaiting
  | noNewData
  | overrun
  | configError
  /-- Never produced: storage is fixed (R9, R250). -/
  | allocFailure
  | empty
  | notActive
  | notStarted
  | stateError
  | wrongMode
  | illegal
  deriving DecidableEq, Repr

/-- The code of a status (R250). -/
def statusCode : Status → BitVec 4
  | .ok => 0
  | .syncWaiting => 1
  | .noNewData => 2
  | .overrun => 3
  | .configError => 4
  | .allocFailure => 5
  | .empty => 6
  | .notActive => 7
  | .notStarted => 8
  | .stateError => 9
  | .wrongMode => 10
  | .illegal => 11

/-- The response word: `DATA` in 31:8, zeros in 7:5, `READY` in 4, `STATUS` in 3:0 (R104). -/
def responseWord (st : Status) (ready : Bool) (data : BitVec 24) : ResponseWord :=
  (data.setWidth 32 <<< 8) ||| ((BitVec.ofBool ready).setWidth 32 <<< 4) ||| (statusCode st).setWidth 32

/-- The `STATUS` field of a response (R104). -/
def statusField (r : ResponseWord) : BitVec 4 := r.extractLsb' 0 4

/-- The `READY` bit of a response (R104, R256). -/
def readyBit (r : ResponseWord) : Bool := r.getLsbD 4

/-- The reserved bits 7:5 of a response (R104). -/
def reservedField (r : ResponseWord) : BitVec 3 := r.extractLsb' 5 3

/-- The `DATA` field of a response (R104). -/
def dataField (r : ResponseWord) : BitVec 24 := r.extractLsb' 8 24

end Sys2Proof.Machine
end

