-- ==== Sys2Proof/Machine/Ops.lean ====
section
/-! DEFINITION. The named operations over slots, cursors and the response that every meaning is built from.

The block takes no exception: no status is a trap, nothing is saved and control goes nowhere (60_exceptions.md R253,
R254). The one shared way a command ends is `raise`, with a status in the response (00_scope.md R14). -/

namespace Sys2Proof.Machine

/-! ### Slots (20_memory.md R70, R71) -/

/-- What an unlisted slot reads as (R50, R132; log 5, log 12). -/
def Memory.unlisted {w : Nat} (m : Memory w) (slot : Nat) : BitVec w :=
  match m.fill with
  | .zero => 0
  | .powerOn era bits => BitVec.ofNat w ((Config.powerOnSlot w era slot).toNat % 2 ^ bits)

/-- The value listed for a slot. -/
def Memory.lookup {w : Nat} : List (Nat × BitVec w) → Nat → Option (BitVec w)
  | [], _ => none
  | c :: cs, slot => if c.1 = slot then some c.2 else Memory.lookup cs slot

/-- `MemRead` (R71). -/
def Memory.read {w : Nat} (m : Memory w) (slot : Nat) : BitVec w :=
  (Memory.lookup m.cells slot).getD (m.unlisted slot)

/-- The list without a slot. -/
def Memory.remove {w : Nat} (cells : List (Nat × BitVec w)) (slot : Nat) : List (Nat × BitVec w) :=
  cells.filter (fun c => decide (c.1 ≠ slot))

/-- The list with an entry put in its place, where the slot is not listed. -/
def Memory.place {w : Nat} (slot : Nat) (v : BitVec w) : List (Nat × BitVec w) → List (Nat × BitVec w)
  | [] => [(slot, v)]
  | c :: cs => if slot < c.1 then (slot, v) :: c :: cs else c :: Memory.place slot v cs

/-- `MemWrite` (R71), keeping the canonical form: a value equal to the fill is not listed. -/
def Memory.write {w : Nat} (m : Memory w) (slot : Nat) (v : BitVec w) : Memory w :=
  if v = m.unlisted slot then { m with cells := Memory.remove m.cells slot }
  else { m with cells := Memory.place slot v (Memory.remove m.cells slot) }

/-- `MemWrite` of zero to every slot (START, R132). -/
def Memory.zeroed (w : Nat) : Memory w := ⟨[], .zero⟩

/-- Slots strictly rising. -/
def Memory.rising {w : Nat} : List (Nat × BitVec w) → Bool
  | [] => true
  | [_] => true
  | a :: b :: rest => decide (a.1 < b.1) && Memory.rising (b :: rest)

/-- The canonical form: slots strictly rising, no entry equal to what its slot would read as unlisted. -/
def Memory.wf {w : Nat} (m : Memory w) : Bool :=
  Memory.rising m.cells && m.cells.all (fun c => decide (c.2 ≠ m.unlisted c.1))

/-! ### Ring cursors (20_memory.md R73 to R75) -/

/-- `inc(i, L) = (i + 1) mod L` (R15, R73). -/
def inc (i : Cursor) (cap : Nat) : Cursor := BitVec.ofNat 16 ((i.toNat + 1) % cap)

/-- The depth `(WR - RD) mod L` (R74), the mathematical remainder of R12. -/
def depth (wr rd : Cursor) (cap : Nat) : Nat := (((wr.toNat : Int) - (rd.toNat : Int)) % (cap : Int)).toNat

/-- `Full(SR)` (R15, R75). -/
def State.fullS (s : State) : Bool := inc s.srWr s.cfg.capS == s.srRd

/-- `Full(BR)` (R15, R75). -/
def State.fullB (s : State) : Bool := inc s.brWr s.cfg.capB == s.brRd

/-- `Empty(SR)` (R15, R74). -/
def State.emptyS (s : State) : Bool := s.srWr == s.srRd

/-- `Empty(BR)` (R15, R74). -/
def State.emptyB (s : State) : Bool := s.brWr == s.brRd

/-- The depth of the SampleRing. -/
def State.depthS (s : State) : Nat := depth s.srWr s.srRd s.cfg.capS

/-- The depth of the BitRing. -/
def State.depthB (s : State) : Nat := depth s.brWr s.brRd s.cfg.capB

/-- The slot the next Word is written to (R34). -/
def State.nextWriteS (s : State) : Cursor := inc s.srWr s.cfg.capS

/-- The slot of the next Word to consume (R35). -/
def State.nextReadS (s : State) : Cursor := inc s.srRd s.cfg.capS

/-- The slot the next byte is written to (R40). -/
def State.nextWriteB (s : State) : Cursor := inc s.brWr s.cfg.capB

/-- The slot of the next byte to consume, or of the byte now being read (R41). -/
def State.nextReadB (s : State) : Cursor := inc s.brRd s.cfg.capB

/-- The cursors and the partial-bit count in the legal values of R30. -/
abbrev State.InRange (s : State) : Prop :=
  s.srWr.toNat < s.cfg.capS ∧ s.srRd.toNat < s.cfg.capS ∧ s.srBits.toNat < s.cfg.wordBits ∧
  s.brWr.toNat < s.cfg.capB ∧ s.brRd.toNat < s.cfg.capB

/-! ### Named updates of the state -/

/-- `WR <- inc(WR); MemWrite(SR, WR, w)`: a write into a SampleRing that is not full (R34, R75). -/
def State.putWord (s : State) (w : Word) : State :=
  { s with srWr := s.nextWriteS, srBuf := s.srBuf.write s.nextWriteS.toNat w }

/-- `WR <- inc(WR); MemWrite(BR, WR, b)`: a write into a BitRing that is not full (R40, R75). -/
def State.putByte (s : State) (b : Byte) : State :=
  { s with brWr := s.nextWriteB, brBuf := s.brBuf.write s.nextWriteB.toNat b }

/-- `SR.RD <- inc(SR.RD, L_s)`. -/
def State.takeWord (s : State) : State := { s with srRd := s.nextReadS }

/-- `BR.RD <- inc(BR.RD, L_b)`. -/
def State.takeByte (s : State) : State := { s with brRd := s.nextReadB }

/-- Both rings zero-filled (R132). -/
def State.zeroFill (s : State) : State := { s with srBuf := Memory.zeroed 24, brBuf := Memory.zeroed 8 }

/-- Every cursor, partial-bit count, counter and flag of both rings, and `ENC.ACC`, back to 0 (R132, R138). -/
def State.clearCursors (s : State) : State :=
  { s with
    srWr := 0, srRd := 0, srBits := 0
    brWr := 0, brRd := 0, brBit := 0, brBss := 0, brSync := false
    encAcc := 0 }

/-- Both rings Active (R130). -/
def State.activate (s : State) : State := { s with srState := .active, brState := .active }

/-- Both rings Inactive (R136). -/
def State.deactivate (s : State) : State := { s with srState := .inactive, brState := .inactive }

/-- `BR.RD <- BR.WR; BR.BIT <- 0`: every byte written so far is discarded (R78, R181, R182). -/
def State.discardBytes (s : State) : State := { s with brRd := s.brWr, brBit := 0 }

/-- `BR.SYNC <- 1; BR.BSS <- 0` (R181). -/
def State.markSynchronized (s : State) : State := { s with brSync := true, brBss := 0 }

/-- `BR.SYNC <- 0` (R136). -/
def State.clearSync (s : State) : State := { s with brSync := false }

/-- `SES.STARTED <- 1` (R132). -/
def State.markStarted (s : State) : State := { s with started := true }

/-- `BR.BSS <- v`. -/
def State.withCount (s : State) (v : BitVec 16) : State := { s with brBss := v }

/-- `BR.BIT <- v`. -/
def State.withBit (s : State) (v : BitVec 3) : State := { s with brBit := v }

/-- `ENC.ACC <- v`. -/
def State.withAcc (s : State) (v : Byte) : State := { s with encAcc := v }

/-- `SR.BITS <- v`. -/
def State.withBits (s : State) (v : BitVec 5) : State := { s with srBits := v }

/-- `SR.RD <- slot; SR.BITS <- 0`: the Word at `slot` is consumed (R154). -/
def State.consumeWord (s : State) (slot : Cursor) : State := { s with srRd := slot, srBits := 0 }

/-- No response: the step took no command. -/
def State.unanswered (s : State) : State := { s with response := none }

/-- The response of the command (R104). -/
def State.respond (s : State) (r : ResponseWord) : State := { s with response := some r }

/-! ### The end of a command (00_scope.md R14) -/

/-- What a command, and a step, ends in. -/
abbrev Result := Host.Outcome State Fault Refusal

/-- `raise S`: the command ends with status S, data 0 and READY 0; the writes made so far stand (R14). -/
def raise (st : Status) (s : State) : Result := .next (s.respond (responseWord st false 0))

/-- `raise OK(d, ready)` (R14). -/
def raiseOk (data : BitVec 24) (ready : Bool) (s : State) : Result := .next (s.respond (responseWord .ok ready data))

/-- A configuration that is not well-formed is given no behaviour (R8; log 9). -/
def elaborated (s : State) (r : Result) : Result :=
  if s.cfg.WellFormed then r else .refused .illFormedConfig

/-- The response of a word that names no command (R106, R107 item 1). -/
def illegalCommand (s : State) : Result := elaborated s (raise .illegal s)

end Sys2Proof.Machine
end

