-- ==== Sys2Proof/Machine/Operands.lean ====
section
/-! DEFINITION. The operand forms of the commands: the value ranges of 30_encoding.md R107 items 2 to 4, which every
command tests before anything else (60_exceptions.md R251), and the register map that RDREG's operand indexes
(44_readback.md R231). -/

namespace Sys2Proof.Machine

/-- Operand `WORD` is a Word of the build (R107 item 2). -/
def wordLegal (c : Config) (word : Word) : Bool := decide (word.toNat < 2 ^ c.wordBits)

/-- Operand `REG` is a register index (R107 item 3). -/
def regLegal (reg : BitVec 8) : Bool := decide (reg.toNat ≤ 0x0F)

/-- Operand `SLOT` is a slot of a ring of capacity `cap` (R107 item 4). -/
def slotLegal (cap : Nat) (slot : BitVec 16) : Bool := decide (slot.toNat < cap)

/-- The operand's check comes first; an operand out of range is ILLEGAL, with no state change (R107, R251 step 2). -/
def checkedOperand (legal : Bool) (s : State) (r : Result) : Result :=
  if legal then r else raise .illegal s

/-- The encoding of `STATE` (R37, R231). -/
def ringStateCode : RingState → BitVec 2
  | .inactive => 0
  | .active => 1
  | .busy => 2

/-- The encoding of `MODE` in CONFIG0 (R231). -/
def modeBit : Mode → Bool
  | .emitter => false
  | .receiver => true

/-- CONFIG0: `WORD_BITS` in 4:0, `MODE` in 5, `SYNC_SIGNAL` in 15:8, zeros elsewhere (R231). -/
def config0Value (c : Config) : BitVec 24 :=
  (c.syncSignal.setWidth 24 <<< 8) ||| ((BitVec.ofBool (modeBit c.mode)).setWidth 24 <<< 5) |||
    (BitVec.ofNat 5 c.wordBits).setWidth 24

/-- The registers of the map, by name (R231). -/
inductive Reg where
  | config0
  | syncPeriod
  | srCap
  | brCap
  | srWr
  | srRd
  | srBits
  | srState
  | brWr
  | brRd
  | brBit
  | brState
  | brSync
  | brBss
  | encAcc
  | session
  deriving DecidableEq, Repr

/-- The registers in the order of their indices 0x00 to 0x0F (R231). -/
def regMap : List Reg :=
  [.config0, .syncPeriod, .srCap, .brCap, .srWr, .srRd, .srBits, .srState,
   .brWr, .brRd, .brBit, .brState, .brSync, .brBss, .encAcc, .session]

/-- `RegValue`, zero-extended to the 24 bits of `DATA` (R230, R231). -/
def regValue (s : State) : Reg → BitVec 24
  | .config0 => config0Value s.cfg
  | .syncPeriod => BitVec.ofNat 24 s.cfg.syncPeriod
  | .srCap => BitVec.ofNat 24 s.cfg.capS
  | .brCap => BitVec.ofNat 24 s.cfg.capB
  | .srWr => s.srWr.setWidth 24
  | .srRd => s.srRd.setWidth 24
  | .srBits => s.srBits.setWidth 24
  | .srState => (ringStateCode s.srState).setWidth 24
  | .brWr => s.brWr.setWidth 24
  | .brRd => s.brRd.setWidth 24
  | .brBit => s.brBit.setWidth 24
  | .brState => (ringStateCode s.brState).setWidth 24
  | .brSync => (BitVec.ofBool s.brSync).setWidth 24
  | .brBss => s.brBss.setWidth 24
  | .encAcc => s.encAcc.setWidth 24
  | .session => (BitVec.ofBool s.started).setWidth 24

end Sys2Proof.Machine
end

