-- ==== Sys2Proof/Machine/Ports.lean ====
section
/-! DEFINITION. The ring ports PUSHW, POPB, PUSHB and POPW (43_ring_ports.md R210 to R214). -/

namespace Sys2Proof.Machine

/-- The two checks of every port, in this order: the mode it belongs to, then the state of the ring it touches (R210). -/
def port (mode : Mode) (ring : RingState) (s : State) (r : Result) : Result :=
  if s.cfg.mode ≠ mode then raise .wrongMode s
  else if ring ≠ .active then raise .notActive s
  else r

/-- PUSHW (R211). -/
def execPushw (word : Word) (s : State) : Result :=
  elaborated s (checkedOperand (wordLegal s.cfg word) s
    (port .emitter s.srState s
      (if s.fullS then raise .overrun s else raiseOk 0 false (s.putWord word))))

/-- POPB (R212). -/
def execPopb (s : State) : Result :=
  elaborated s
    (port .emitter s.brState s
      (if s.emptyB then raise .empty s
      else raiseOk ((s.brBuf.read s.nextReadB.toNat).setWidth 24) false s.takeByte))

/-- PUSHB (R213). -/
def execPushb (byte : Byte) (s : State) : Result :=
  elaborated s
    (port .receiver s.brState s
      (if s.fullB then raise .overrun s else raiseOk 0 false (s.putByte byte)))

/-- POPW (R214). -/
def execPopw (s : State) : Result :=
  elaborated s
    (port .receiver s.srState s
      (if s.emptyS then raise .empty s
      else raiseOk (s.srBuf.read s.nextReadS.toNat) false s.takeWord))

end Sys2Proof.Machine
end

