-- ==== Sys2Proof/Machine/Readback.lean ====
section
/-! DEFINITION. RDREG, PEEKW and PEEKB: readback without side effect, in both modes and every session state
(44_readback.md R230 to R233). -/

namespace Sys2Proof.Machine

/-- RDREG (R230): the register at the index, ILLEGAL where the map has none (R107 item 3). -/
def execRdreg (reg : BitVec 8) (s : State) : Result :=
  elaborated s (checkedOperand (regLegal reg) s
    (raiseOk (regValue s (regMap.getD reg.toNat .config0)) false s))

/-- PEEKW (R232). -/
def execPeekw (slot : BitVec 16) (s : State) : Result :=
  elaborated s (checkedOperand (slotLegal s.cfg.capS slot) s
    (raiseOk (s.srBuf.read slot.toNat) false s))

/-- PEEKB (R233). -/
def execPeekb (slot : BitVec 16) (s : State) : Result :=
  elaborated s (checkedOperand (slotLegal s.cfg.capB slot) s
    (raiseOk ((s.brBuf.read slot.toNat).setWidth 24) false s))

end Sys2Proof.Machine
end

