-- ==== Sys2Proof/Machine/Encoder.lean ====
section
/-! DEFINITION. The Encoder: bit packing, marker disambiguation, marker insertion and UPDATE in Emitter mode
(41_encoder.md R151 to R160). A helper that may `raise OVERRUN` answers the state it leaves and whether it went
without overrun; the writes made so far stand either way (00_scope.md R14, R157). -/

namespace Sys2Proof.Machine

/-- `EmitMarker` (R159). -/
def emitMarker (s : State) : State × Bool :=
  let s := s.withCount 0
  if s.fullB then (s, false) else (s.putByte s.cfg.syncSignal, true)

/-- The entry of a `FLIP_INDEX` table for `(done, k, r)`: rows of 24 values of `r`, for `k` from 1 to 8, first for
`done` false (R158). -/
def flipEntry (entries : List (BitVec 3)) (done : Bool) (k r : Nat) : BitVec 3 :=
  entries.getD (((if done then 8 else 0) + (k - 1)) * 24 + r) 0

/-- `FLIP_INDEX(done, k, r)` (R158; log 4). -/
def flipIndex (c : Config) (done : Bool) (k r : Nat) : BitVec 3 :=
  match c.flip with
  | .table entries => flipEntry entries done k r
  | .specDefault =>
    if done then 0
    else if k < 8 then BitVec.ofNat 3 k
    else BitVec.ofNat 3 ((8 - r % 8) % 8)

/-- Marker disambiguation: a byte equal to `SYNC_SIGNAL`, and no other, has the one bit `FLIP_INDEX` flipped (R155). -/
def disambiguate (c : Config) (done : Bool) (k r : Nat) (d : Byte) : Byte :=
  if d = c.syncSignal then d ^^^ ((1 : Byte) <<< (flipIndex c done k r).toNat) else d

/-- The first part of `PushData`: the data byte, dropped where the BitRing is full (R156, R157). -/
def pushOrDrop (d : Byte) (s : State) : State × Bool :=
  if s.fullB then (s, false) else (s.putByte d, true)

/-- The second part of `PushData`: the count, pushed or dropped alike, and the marker where one is due (R156). -/
def countByte (s : State) : State × Bool :=
  let n := s.brBss.toNat + 1
  if n + 1 ≥ s.cfg.syncPeriod then
    pushOrDrop s.cfg.syncSignal (s.withCount 0)
  else (s.withCount (BitVec.ofNat 16 n), true)

/-- `PushData(d)` (R156). -/
def pushData (d : Byte) (s : State) : State × Bool :=
  let p := pushOrDrop d s
  let q := countByte p.1
  (q.1, p.2 && q.2)

/-- `CompleteByte(done, k, r)` (R155). -/
def completeByte (done : Bool) (k r : Nat) (s : State) : State × Bool :=
  pushData (disambiguate s.cfg done k r s.encAcc) (s.withAcc 0)

/-- A byte with bit `i` set to `b` (R153). -/
def setBit (acc : Byte) (i : Nat) (b : Bool) : Byte :=
  if b then acc ||| ((1 : Byte) <<< i) else acc &&& ~~~((1 : Byte) <<< i)

/-- What one pass of the Encoder's `repeat` leaves: the state, `k`, whether the Word is done, and whether the pass went
without overrun. -/
structure Pass where
  state : State
  k : Nat
  done : Bool
  ok : Bool

/-- Bit `WB - 1 - SR.BITS` of the Word into `ENC.ACC[7 - BR.BIT]`, and the Word consumed with its last bit (R152 to
R154). -/
def placeBit (slot : Cursor) (w : Word) (s : State) : State × Bool :=
  let acc := setBit s.encAcc (7 - s.brBit.toNat) (w.getLsbD (s.cfg.wordBits - 1 - s.srBits.toNat))
  let bits := s.srBits.toNat + 1
  if bits = s.cfg.wordBits then ((s.withAcc acc).consumeWord slot, true)
  else ((s.withAcc acc).withBits (BitVec.ofNat 5 bits), false)

/-- One pass of the `repeat` of R151: one bit packed, and the byte completed where it is the eighth. -/
def packBit (slot : Cursor) (w : Word) (k : Nat) (s : State) : Pass :=
  let n := s.brBit.toNat + 1
  let p := placeBit slot w s
  if n = 8 then
    let r := if p.2 then 0 else s.cfg.wordBits - p.1.srBits.toNat
    let q := completeByte p.2 (k + 1) r (p.1.withBit 0)
    ⟨q.1, 0, p.2, q.2⟩
  else ⟨p.1.withBit (BitVec.ofNat 3 n), k + 1, p.2, true⟩

/-- `repeat … until done` for one Word (R151). `fuel` is the number of bits the Word still has to give
(log 18). -/
def encodeWord (slot : Cursor) (w : Word) : (fuel : Nat) → (k : Nat) → State → State × Bool
  | 0, _, s => (s, true)
  | fuel + 1, k, s =>
    let p := packBit slot w k s
    if p.ok then
      if p.done then (p.state, true) else encodeWord slot w fuel p.k p.state
    else (p.state, false)

/-- `while not Empty(SR)` (R151). `fuel` is the number of Words in the SampleRing (log 18). -/
def encodeAll : (fuel : Nat) → State → State × Bool
  | 0, s => (s, true)
  | fuel + 1, s =>
    if s.emptyS then (s, true)
    else
      let p := encodeWord s.nextReadS (s.srBuf.read s.nextReadS.toNat) (s.cfg.wordBits - s.srBits.toNat) 0 s
      if p.2 then encodeAll fuel p.1 else (p.1, false)

/-- `EncoderUpdate` (R151, R157, R160). -/
def encoderUpdate (s : State) : Result :=
  if s.emptyS then raise .noNewData s
  else
    let p := encodeAll s.depthS s
    if p.2 then raiseOk 0 true p.1 else raise .overrun p.1

end Sys2Proof.Machine
end

