-- ==== Sys2Proof/Machine/Session.lean ====
section
/-! DEFINITION. START, STOP and RESTART (40_session.md R130 to R139). -/

namespace Sys2Proof.Machine

/-- `ceil(WB / 8)`. -/
def wordBytes (c : Config) : Nat := (c.wordBits + 7) / 8

/-- The marker of START and RESTART in Emitter mode, none in Receiver mode (R132, R138). -/
def startMarker (s : State) : Result :=
  match s.cfg.mode with
  | .emitter =>
    let p := emitMarker s
    if p.2 then raiseOk 0 false p.1 else raise .overrun p.1
  | .receiver => raiseOk 0 false s

/-- START (R131, R132). -/
def execStart (s : State) : Result :=
  elaborated s
    (if s.srState = .active then raise .stateError s
    else if s.cfg.capB < 1 + wordBytes s.cfg then raise .configError s
    else startMarker s.zeroFill.clearCursors.activate.markStarted)

/-- STOP (R135, R136). -/
def execStop (s : State) : Result :=
  elaborated s
    (match s.cfg.mode with
    | .emitter => raiseOk 0 false s.deactivate
    | .receiver => raiseOk 0 false s.deactivate.clearSync)

/-- RESTART (R138). -/
def execRestart (s : State) : Result :=
  elaborated s
    (if s.started then startMarker s.clearCursors.activate
    else raise .notStarted s)

end Sys2Proof.Machine
end

