-- ==== Sys2Proof/Machine/Decoder.lean ====
section
/-! DEFINITION. The Decoder: synchronization, extraction and UPDATE in Receiver mode (42_decoder.md R180 to R188). It
performs no inverse of the Encoder's flip (R187). -/

namespace Sys2Proof.Machine

/-- Phase 1: the most recently written byte of a BitRing that is not empty is a marker (R181). -/
def State.markerSeen (s : State) : Bool := !s.emptyB && s.brBuf.read s.brWr.toNat == s.cfg.syncSignal

/-- Phase 1: the read position moves to just after the marker (R181). -/
def synchronize (s : State) : State :=
  if s.markerSeen then s.discardBytes.markSynchronized else s

/-- `avail`, the number of unread bits (R183); never below 0 in the states of R47 item 4. -/
def State.avail (s : State) : Nat := s.depthB * 8 - s.brBit.toNat

/-- One bit of extraction: the bit at `BR.BIT`, from the top, of the slot being read is appended to the Word, and the
read position moves on (R184). -/
def extractBit (w : Word) (s : State) : Word × State :=
  let b := (s.brBuf.read s.nextReadB.toNat).getLsbD (7 - s.brBit.toNat)
  let w := (w <<< 1) ||| (BitVec.ofBool b).setWidth 24
  if s.brBit = 7 then
    (w, (s.takeByte.withBit 0).withCount (BitVec.ofNat 16 (min (s.brBss.toNat + 1) 65535)))
  else (w, s.withBit (s.brBit + 1))

/-- `repeat WB times` (R180, R184). -/
def extractBits : Nat → Word → State → Word × State
  | 0, w, s => (w, s)
  | n + 1, w, s =>
    let p := extractBit w s
    extractBits n p.1 p.2

/-- The push of the decoded Word (R185, R186). -/
def pushDecoded (w : Word) (s : State) : Result :=
  if s.fullS then raise .overrun s else raiseOk 0 true (s.putWord w)

/-- Phase 2: the window test and the extraction of at most one Word (R183, R184, R188). -/
def extractWord (s : State) : Result :=
  if s.avail < s.cfg.wordBits then raise .noNewData s
  else
    let p := extractBits s.cfg.wordBits 0 s
    pushDecoded p.1 p.2

/-- `DecoderUpdate` (R180): phase 1, then SYNC_WAITING with every byte discarded (R182), or phase 2. -/
def decoderUpdate (s : State) : Result :=
  let s := synchronize s
  if s.brSync then extractWord s else raise .syncWaiting s.discardBytes

end Sys2Proof.Machine
end

