-- ==== Sys2Proof/Machine/Update.lean ====
section
/-! DEFINITION. UPDATE: the prologue shared by the two modes (41_encoder.md R150). -/

namespace Sys2Proof.Machine

/-- UPDATE (R150). A state outside the legal values of 10_state.md R30 has no rule (log 8). -/
def execUpdate (s : State) : Result :=
  elaborated s
    (if s.srState ≠ .active then raise .notActive s
    else if s.InRange then
      match s.cfg.mode with
      | .emitter => encoderUpdate s
      | .receiver => decoderUpdate s
    else .fault .outOfRangeState)

end Sys2Proof.Machine
end

