-- ==== Sys2Proof/Machine/Dispatch.lean ====
section
/-! DEFINITION. One arm per command, each one direct call of its meaning. -/

namespace Sys2Proof.Machine

def exec (i : Instr) (s : State) : Host.Outcome State Fault Refusal :=
  match i with
  | .start => Sys2Proof.Machine.execStart s
  | .stop => Sys2Proof.Machine.execStop s
  | .restart => Sys2Proof.Machine.execRestart s
  | .update => Sys2Proof.Machine.execUpdate s
  | .pushw word => Sys2Proof.Machine.execPushw word s
  | .popw => Sys2Proof.Machine.execPopw s
  | .pushb byte => Sys2Proof.Machine.execPushb byte s
  | .popb => Sys2Proof.Machine.execPopb s
  | .rdreg reg => Sys2Proof.Machine.execRdreg reg s
  | .peekw slot => Sys2Proof.Machine.execPeekw slot s
  | .peekb slot => Sys2Proof.Machine.execPeekb slot s

end Sys2Proof.Machine
end

