-- ==== Sys2Proof/Decode.lean ====
section
/-! DEFINITION. Decoding of command words, total and rejecting by name (30_encoding.md R100 to R103, R106, R107
item 1, R108, R109), and the encoder. The value ranges of R107 items 2 to 4 depend on the build and are the third
thing a decoder tests (R108): the meanings test them, before anything else (`Machine.checkedOperand`; log 11). -/

namespace Sys2Proof

/-- Why a word names no command. -/
inductive Illegal where
  /-- `OP` is reserved (R106). -/
  | reservedOp
  /-- A reserved `OPND` bit of the format is 1 (R107 item 1). -/
  | reservedBits
  deriving DecidableEq, Repr

/-- What a word decodes to. -/
inductive Decoded where
  | command (i : Instr)
  | illegal (why : Illegal)
  deriving DecidableEq, Repr

/-- The field `OP` (R100). -/
def opField (w : CommandWord) : BitVec 8 := w.extractLsb' 24 8

/-- The field `OPND` (R100). -/
def opndField (w : CommandWord) : BitVec 24 := w.extractLsb' 0 24

/-- Format N: no value field, `OPND[23:0]` reserved (R101). -/
def decodeN (opnd : BitVec 24) (i : Instr) : Decoded :=
  if opnd = 0 then .command i else .illegal .reservedBits

/-- Formats B and R: the value is `OPND[7:0]`, `OPND[23:8]` reserved (R101, R102). -/
def decodeB (opnd : BitVec 24) (i : BitVec 8 → Instr) : Decoded :=
  if opnd.extractLsb' 8 16 = 0 then .command (i (opnd.extractLsb' 0 8)) else .illegal .reservedBits

/-- Format S: the value is `OPND[15:0]`, `OPND[23:16]` reserved (R101, R102). -/
def decodeS (opnd : BitVec 24) (i : BitVec 16 → Instr) : Decoded :=
  if opnd.extractLsb' 16 8 = 0 then .command (i (opnd.extractLsb' 0 16)) else .illegal .reservedBits

/-- The opcode map (R103): `OP` first, then the format's reserved bits (R108). -/
def decodeFields (op : BitVec 8) (opnd : BitVec 24) : Decoded :=
  if op = 0x01 then decodeN opnd .start
  else if op = 0x02 then decodeN opnd .stop
  else if op = 0x03 then decodeN opnd .restart
  else if op = 0x04 then decodeN opnd .update
  else if op = 0x10 then .command (.pushw opnd)
  else if op = 0x11 then decodeN opnd .popw
  else if op = 0x12 then decodeB opnd .pushb
  else if op = 0x13 then decodeN opnd .popb
  else if op = 0x20 then decodeB opnd .rdreg
  else if op = 0x21 then decodeS opnd .peekw
  else if op = 0x22 then decodeS opnd .peekb
  else .illegal .reservedOp

/-- Decoding of a command word. -/
def decode (w : CommandWord) : Decoded := decodeFields (opField w) (opndField w)

/-- The opcode value of a command (R103). -/
def opcode : Instr → BitVec 8
  | .start => 0x01
  | .stop => 0x02
  | .restart => 0x03
  | .update => 0x04
  | .pushw _ => 0x10
  | .popw => 0x11
  | .pushb _ => 0x12
  | .popb => 0x13
  | .rdreg _ => 0x20
  | .peekw _ => 0x21
  | .peekb _ => 0x22

/-- The operand of a command, zero-extended to its 24 bits (R101, R102). -/
def operand : Instr → BitVec 24
  | .start => 0
  | .stop => 0
  | .restart => 0
  | .update => 0
  | .pushw word => word
  | .popw => 0
  | .pushb byte => byte.setWidth 24
  | .popb => 0
  | .rdreg reg => reg.setWidth 24
  | .peekw slot => slot.setWidth 24
  | .peekb slot => slot.setWidth 24

/-- The word of a command: `OP` in 31:24, `OPND` in 23:0, as R110 writes it, `OP << 24 | value` (R100, R103). -/
def encode (i : Instr) : CommandWord := ((opcode i).setWidth 32 <<< 24) ||| (operand i).setWidth 32

/-- The instruction the decoder reads from `nbits` bits of value `w`. A command is one 32-bit transfer with no byte
order (R100), so the table's numbering of the bits is the word's own (log 13). -/
def decodeTableWord (nbits w : Nat) : Option Instr :=
  if nbits ≤ 32 then
    match decode (BitVec.ofNat 32 (w % 2 ^ nbits)) with
    | .command i => some i
    | .illegal _ => none
  else none

end Sys2Proof
end

