-- ==== Sys2Proof/Machine/Input.lean ====
section
/-! DEFINITION. What reaches the block from outside: command words in the arbiter's order (20_memory.md R90) and the
reset input (70_reset_and_hazards.md R280). -/

namespace Sys2Proof.Machine

/-- The arbiter is handed one more command word (R90; log 1). -/
def State.present (s : State) (w : CommandWord) : State := { s with pending := s.pending ++ [w] }

/-- The reset input is asserted (R280; log 6). -/
def State.assertReset (s : State) : State := { s with resetLine := true }

/-- What the block takes next. -/
inductive Taken where
  /-- The reset input. -/
  | reset
  /-- Nothing: no command is presented. -/
  | nothing
  /-- A command word that names a command; `rest` are the words still pending. -/
  | command (i : Instr) (rest : List CommandWord)
  /-- A command word that is illegal as a word. -/
  | illegal (rest : List CommandWord)

/-- Reset acts between commands and comes first: a command not yet taken is not executed (R280). Otherwise the
oldest pending word is decoded (R108). -/
def take (s : State) : Taken :=
  if s.resetLine then .reset
  else match s.pending with
    | [] => .nothing
    | w :: rest =>
      match decode w with
      | .command i => .command i rest
      | .illegal _ => .illegal rest

/-- The command just taken no longer stands among the pending ones. -/
def State.withPending (s : State) (rest : List CommandWord) : State := { s with pending := rest }

/-- Reset: every state element at its reset value, the parameters kept, the pending commands not executed, no response,
and buffer contents that no earlier value constrains (R50, R280, R282). -/
def takeReset (s : State) : Result := elaborated s (.next (State.powerOn s.cfg (s.powerOns + 1)))

/-- With no command the block takes no step of its own (R282); no response is given (log 7). -/
def idle (s : State) : Result := elaborated s (.next s.unanswered)

end Sys2Proof.Machine
end

