-- ==== Sys2Proof/Machine/Step.lean ====
section
/-! DEFINITION. One step of the block: it takes one command, runs it to completion and answers (20_memory.md R90). -/

namespace Sys2Proof.Machine

/-- One step (R90, R280, R282). -/
def step (s : State) : Host.Outcome State Fault Refusal :=
  match take s with
  | .reset => takeReset s
  | .nothing => idle s
  | .command i rest => exec i (s.withPending rest)
  | .illegal rest => illegalCommand (s.withPending rest)

/-- The state in which the very next step takes the command word whose low `nbits` bits are `w`: the word stands first
among the pending ones and the reset input is not asserted (log 1). A command is one 32-bit transfer, so a value that
does not fit one word presents nothing. -/
def State.withFetchWord (s : State) (nbits w : Nat) : State :=
  if nbits ≤ 32 then
    { s with pending := BitVec.ofNat 32 (w % 2 ^ nbits) :: s.pending, resetLine := false }
  else s

end Sys2Proof.Machine
end

