-- ==== Sys2Proof/Machine/Assembler.lean ====
section
/-! DEFINITION. The spec's assembler syntax and its two pseudo-instructions (30_encoding.md R110, R111). No step uses
it: it says which command words a line of a program stands for. What R110 leaves open of the text is log 16. -/

namespace Sys2Proof.Machine

/-- A line of a program: a command, or one of the pseudo-instructions (R111). -/
inductive AsmLine where
  | command (i : Instr)
  /-- `FEED w`, legal in Emitter mode. -/
  | feed (word : Word)
  /-- `RECV b`, legal in Receiver mode. -/
  | recv (byte : Byte)
  deriving DecidableEq, Repr

/-- The commands a line stands for, in order; those of a pseudo-instruction are separate commands (R111). -/
def expand : AsmLine → List Instr
  | .command i => [i]
  | .feed word => [.pushw word, .update]
  | .recv byte => [.pushb byte, .update]

/-- The mode a line is legal in, where it is one (R111). -/
def asmModeLegal (c : Config) : AsmLine → Bool
  | .command _ => true
  | .feed _ => decide (c.mode = .emitter)
  | .recv _ => decide (c.mode = .receiver)

/-- The words of a line, or none where a value would make a word illegal under R107 (R110). -/
def assemble (c : Config) (l : AsmLine) : Option (List CommandWord) :=
  if asmModeLegal c l && (expand l).all (fun i => i.wellFormed c) then some ((expand l).map encode) else none

/-- A decimal digit. -/
def decDigit (ch : Char) : Option Nat :=
  if 48 ≤ ch.toNat ∧ ch.toNat ≤ 57 then some (ch.toNat - 48) else none

/-- A hexadecimal digit, in capitals or small letters. -/
def hexDigit (ch : Char) : Option Nat :=
  if 48 ≤ ch.toNat ∧ ch.toNat ≤ 57 then some (ch.toNat - 48)
  else if 65 ≤ ch.toNat ∧ ch.toNat ≤ 70 then some (ch.toNat - 55)
  else if 97 ≤ ch.toNat ∧ ch.toNat ≤ 102 then some (ch.toNat - 87)
  else none

/-- The value of digits read from the left, after those already read. -/
def digits (base : Nat) (digit : Char → Option Nat) : Nat → List Char → Option Nat
  | n, [] => some n
  | n, ch :: rest =>
    match digit ch with
    | some d => digits base digit (n * base + d) rest
    | none => none

/-- A number, hexadecimal with the prefix `0x` or decimal (R110). -/
def number : List Char → Option Nat
  | [] => none
  | [ch] => digits 10 decDigit 0 [ch]
  | '0' :: 'x' :: [] => none
  | '0' :: 'x' :: rest => digits 16 hexDigit 0 rest
  | text => digits 10 decDigit 0 text

/-- The name of a register (R231). -/
def regName : Reg → List Char
  | .config0 => "CONFIG0".toList
  | .syncPeriod => "SYNC_PERIOD".toList
  | .srCap => "SR_CAP".toList
  | .brCap => "BR_CAP".toList
  | .srWr => "SR_WR".toList
  | .srRd => "SR_RD".toList
  | .srBits => "SR_BITS".toList
  | .srState => "SR_STATE".toList
  | .brWr => "BR_WR".toList
  | .brRd => "BR_RD".toList
  | .brBit => "BR_BIT".toList
  | .brState => "BR_STATE".toList
  | .brSync => "BR_SYNC".toList
  | .brBss => "BR_BSS".toList
  | .encAcc => "ENC_ACC".toList
  | .session => "SESSION".toList

/-- The operand of RDREG: a register index or a register name (R110). -/
def regOperand (text : List Char) : Option Nat :=
  match number text with
  | some n => some n
  | none =>
    if regMap.any (fun r => decide (regName r = text)) then
      some (regMap.findIdx (fun r => decide (regName r = text)))
    else none

/-- A value that fits a field of `w` bits (R101). -/
def fit (w : Nat) (n : Option Nat) : Option (BitVec w) :=
  match n with
  | some n => if n < 2 ^ w then some (BitVec.ofNat w n) else none
  | none => none

/-- A line without an operand. -/
def bareLine (m : List Char) : Option AsmLine :=
  if m = "START".toList then some (.command .start)
  else if m = "STOP".toList then some (.command .stop)
  else if m = "RESTART".toList then some (.command .restart)
  else if m = "UPDATE".toList then some (.command .update)
  else if m = "POPW".toList then some (.command .popw)
  else if m = "POPB".toList then some (.command .popb)
  else none

/-- A line with an operand. -/
def operandLine (m x : List Char) : Option AsmLine :=
  if m = "PUSHW".toList then (fit 24 (number x)).map (fun v => .command (.pushw v))
  else if m = "PUSHB".toList then (fit 8 (number x)).map (fun v => .command (.pushb v))
  else if m = "RDREG".toList then (fit 8 (regOperand x)).map (fun v => .command (.rdreg v))
  else if m = "PEEKW".toList then (fit 16 (number x)).map (fun v => .command (.peekw v))
  else if m = "PEEKB".toList then (fit 16 (number x)).map (fun v => .command (.peekb v))
  else if m = "FEED".toList then (fit 24 (number x)).map .feed
  else if m = "RECV".toList then (fit 8 (number x)).map .recv
  else none

/-- The text before a `;` (R110). -/
def beforeComment : List Char → List Char
  | [] => []
  | ch :: rest => if ch = ';' then [] else ch :: beforeComment rest

/-- The tokens of a text, separated by spaces and tabs; `token` is the one being read, last character first. -/
def tokens : (token : List Char) → List Char → List (List Char)
  | [], [] => []
  | token, [] => [token.reverse]
  | token, ch :: rest =>
    if ch = ' ' ∨ ch = '\t' then
      match token with
      | [] => tokens [] rest
      | token => token.reverse :: tokens [] rest
    else tokens (ch :: token) rest

/-- The words of one line of text; none where the assembler rejects it, no word where it holds a comment at most
(R110, R111). -/
def assembleText (c : Config) (text : List Char) : Option (List CommandWord) :=
  match tokens [] (beforeComment text) with
  | [] => some []
  | [m] => (bareLine m).bind (assemble c)
  | [m, x] => (operandLine m x).bind (assemble c)
  | _ => none

end Sys2Proof.Machine
end

