-- ==== Sys2Proof/Safety.lean ====
section
/-! DEFINITION. What counts as a sound state and a safe run, and the vocabulary the statements are written in: the
contents of the rings in order of consumption, the packed bit stream, the agents, and a session of a Receiver fed byte
by byte. -/

namespace Sys2Proof.Machine

/-! ### Sound states (10_state.md R30, R47) -/

/-- The buffers are in canonical form (log 12). -/
abbrev State.Canonical (s : State) : Prop := s.srBuf.wf = true ∧ s.brBuf.wf = true

/-- Every slot of the SampleRing holds a Word of the build (R30): every listed one does, and the fill does. -/
abbrev State.WordsLegal (s : State) : Prop :=
  s.srBuf.cells.all (fun c => decide (c.2.toNat < 2 ^ s.cfg.wordBits)) = true ∧
  (s.srBuf.fill = .zero ∨ s.srBuf.fill = .powerOn s.powerOns s.cfg.wordBits)

/-- Once a START has succeeded no slot holds a power-on value any more, and the size check has passed (R50, R132, R138). -/
abbrev State.StartedSound (s : State) : Prop :=
  s.started = true → s.srBuf.fill = .zero ∧ s.brBuf.fill = .zero ∧ 1 + wordBytes s.cfg ≤ s.cfg.capB

/-- R47 item 6: the rings are in one state, and it is not Busy; an Active one has been started (R37, R38, R46). -/
abbrev State.RingStatesSound (s : State) : Prop :=
  s.srState = s.brState ∧ s.srState ≠ .busy ∧ (s.srState = .active → s.started = true)

/-- R47 item 7: before the first START everything holds its reset value. -/
abbrev State.UnstartedSound (s : State) : Prop :=
  s.started = false →
    s.srState = .inactive ∧ s.srWr = 0 ∧ s.srRd = 0 ∧ s.srBits = 0 ∧ s.brWr = 0 ∧ s.brRd = 0 ∧ s.brBit = 0 ∧
    s.brBss = 0 ∧ s.brSync = false ∧ s.encAcc = 0

/-- Emitter mode: `BR.SYNC` stays 0 (R43), `BR.BSS` is in 0..P-2 (R44), and the bits of `ENC.ACC` not yet placed are 0
(R45). -/
abbrev State.EmitterSound (s : State) : Prop :=
  s.cfg.mode = .emitter →
    s.brSync = false ∧ s.brBss.toNat + 2 ≤ s.cfg.syncPeriod ∧ s.encAcc.toNat % 2 ^ (8 - s.brBit.toNat) = 0

/-- Receiver mode: `SR.BITS` and `ENC.ACC` stay 0 (R47 item 2), no byte is partly read when none is unread (R47 item 4),
nor in a session that has not synchronized (R47 item 5; log 10). -/
abbrev State.ReceiverSound (s : State) : Prop :=
  s.cfg.mode = .receiver →
    s.srBits = 0 ∧ s.encAcc = 0 ∧ (s.depthB = 0 → s.brBit = 0) ∧
    (s.srState = .active → s.brSync = false → s.brBit = 0)

/-- A sound state: what holds at every boundary after any commands from reset (R30, R47). -/
abbrev State.Sound (s : State) : Prop :=
  s.cfg.WellFormed ∧ s.InRange ∧ s.Canonical ∧ s.WordsLegal ∧ s.StartedSound ∧ s.RingStatesSound ∧ s.UnstartedSound ∧
  (s.depthS = 0 → s.srBits = 0) ∧ s.EmitterSound ∧ s.ReceiverSound

/-- The states of the block of configuration `c` after any sequence of inputs from a reset: the environment presents
commands and asserts reset between steps, in any order (R90, R280). -/
inductive Reachable (c : Config) : State → Prop where
  | powerOn (era : Nat) : Reachable c (State.powerOn c era)
  | present (s : State) (w : CommandWord) : Reachable c s → Reachable c (s.present w)
  | assertReset (s : State) : Reachable c s → Reachable c s.assertReset
  | step (s t : State) : Reachable c s → Machine.step s = .next t → Reachable c t

/-! ### The contents of the rings, in order of consumption (20_memory.md R74) -/

/-- The `n` items after cursor `rd`. -/
def ringItems {w : Nat} (m : Memory w) (cap : Nat) : Nat → Cursor → List (BitVec w)
  | 0, _ => []
  | n + 1, rd => m.read (inc rd cap).toNat :: ringItems m cap n (inc rd cap)

/-- The unread Words, oldest first. -/
def State.unreadWords (s : State) : List Word := ringItems s.srBuf s.cfg.capS s.depthS s.srRd

/-- The unread bytes, oldest first. -/
def State.unreadBytes (s : State) : List Byte := ringItems s.brBuf s.cfg.capB s.depthB s.brRd

/-! ### The packed stream (20_memory.md R79 to R83) -/

/-- The low `n` bits of a value, most significant first (R79). -/
def msbBits {w : Nat} (n : Nat) (v : BitVec w) : List Bool := (List.range n).map (fun j => v.getLsbD (n - 1 - j))

/-- The bits already placed in `ENC.ACC`, first placed first (R45). -/
def State.heldBits (s : State) : List Bool := (msbBits 8 s.encAcc).take s.brBit.toNat

/-- The bits an Encoder UPDATE has before it: those held, then those the unread Words have still to give (R164). -/
def State.bitsToPack (s : State) : List Bool :=
  s.heldBits ++ (s.unreadWords.flatMap (msbBits s.cfg.wordBits)).drop s.srBits.toNat

/-- The bits a Decoder UPDATE has before it (R48, R183). -/
def State.unreadBits (s : State) : List Bool := (s.unreadBytes.flatMap (msbBits 8)).drop s.brBit.toNat

/-- A byte from its bits, most significant first (R80). -/
def byteOfBits (bits : List Bool) : Byte := bits.foldl (fun v b => (v <<< 1) ||| (BitVec.ofBool b).setWidth 8) 0

/-- The first `n` whole bytes of a bit stream (R80). -/
def bytesOfBits : Nat → List Bool → List Byte
  | 0, _ => []
  | n + 1, bits => byteOfBits (bits.take 8) :: bytesOfBits n (bits.drop 8)

/-- The data bytes of a run with the periodic markers put in, from a count `bss` of data bytes since the last one
(R83, R156, R162). -/
def withMarkers (c : Config) : (bss : Nat) → List Byte → List Byte
  | _, [] => []
  | bss, d :: ds =>
    if bss + 2 ≥ c.syncPeriod then d :: c.syncSignal :: withMarkers c 0 ds
    else d :: withMarkers c (bss + 1) ds

/-- The data bytes an Encoder UPDATE completes where nothing stops it, before disambiguation (R153). -/
def State.dataBytes (s : State) : List Byte := bytesOfBits (s.bitsToPack.length / 8) s.bitsToPack

/-- Where the last bit of the `m`-th of those bytes stands among the bits of the unread Words, those already packed
counted (R152, R153). It is bit number `lastBit % WB` of the Word number `lastBit / WB`, most significant first. -/
def State.lastBit (s : State) (m : Nat) : Nat := s.srBits.toNat + (8 * m + 7 - s.brBit.toNat)

/-- `done` at the end of the `m`-th byte: its last bit is the last of its Word (R151, R158). -/
def State.lastBitDone (s : State) (m : Nat) : Bool := s.lastBit m % s.cfg.wordBits + 1 == s.cfg.wordBits

/-- `k` at the end of the `m`-th byte: how many of its bits this UPDATE took from the Word of its last bit, which are
those since the later of that Word's first bit and `SR.BITS`, at most 8 (R151, R158). -/
def State.lastBitCount (s : State) (m : Nat) : Nat :=
  min 8 (s.lastBit m + 1 - max (s.lastBit m / s.cfg.wordBits * s.cfg.wordBits) s.srBits.toNat)

/-- `r` at the end of the `m`-th byte: how many bits of the Word of its last bit are still to pack (R151, R158). -/
def State.lastBitRest (s : State) (m : Nat) : Nat := s.cfg.wordBits - (s.lastBit m % s.cfg.wordBits + 1)

/-- What the `m`-th byte `d` is sent as: itself, or with the one bit `FLIP_INDEX` flipped where it equals the marker
(R155, R158). -/
def State.sentByte (s : State) (m : Nat) (d : Byte) : Byte :=
  if d = s.cfg.syncSignal then
    d ^^^ ((1 : Byte) <<< (flipIndex s.cfg (s.lastBitDone m) (s.lastBitCount m) (s.lastBitRest m)).toNat)
  else d

/-- The data bytes as they are sent. -/
def State.sentBytes (s : State) : List Byte := s.dataBytes.mapIdx s.sentByte

/-- All that an Encoder UPDATE has to push, in order, its markers among the data bytes. -/
def State.outgoing (s : State) : List Byte := withMarkers s.cfg s.brBss.toNat s.sentBytes

/-- How many bytes the BitRing has room for (R75). -/
def State.roomB (s : State) : Nat := s.cfg.capB - 1 - s.depthB

/-! ### Agents (00_scope.md R11) -/

/-- The five agents. -/
inductive Agent where
  | host
  | frontEnd
  | transportTx
  | transportRx
  | analogOut
  deriving DecidableEq, Repr

/-- The commands each agent issues, by mode (R11). The block does not check it (log 15). -/
def Agent.issues (m : Mode) : Agent → Instr → Bool
  | .host, .start => true
  | .host, .stop => true
  | .host, .restart => true
  | .host, .update => true
  | .host, .rdreg _ => true
  | .host, .peekw _ => true
  | .host, .peekb _ => true
  | .frontEnd, .pushw _ => decide (m = .emitter)
  | .transportTx, .popb => decide (m = .emitter)
  | .transportRx, .pushb _ => decide (m = .receiver)
  | .analogOut, .popw => decide (m = .receiver)
  | _, _ => false

/-! ### Runs of commands -/

/-- The command answers status `st` with data 0 and READY 0, and changes no state (R14, R252). -/
def AnswersOnly (i : Instr) (s : State) (st : Status) : Prop :=
  exec i s = .next (s.respond (responseWord st false 0))

/-- The state after a command, and its response, where it answers. -/
def after (i : Instr) (s : State) : Option (State × ResponseWord) :=
  match exec i s with
  | .next t =>
    match t.response with
    | some r => some (t, r)
    | none => none
  | .fault _ => none
  | .refused _ => none

/-- The state after a command that answers OK. -/
def afterOk (i : Instr) (s : State) : Option State :=
  match after i s with
  | some (t, r) => if statusField r = statusCode .ok then some t else none
  | none => none

/-- Bytes fed to a Receiver, each by a PUSHB that answers OK, followed by one UPDATE (`RECV`, R111): the state left and the
responses of the UPDATEs; none where a PUSHB answers otherwise. -/
def feed : List Byte → State → Option (State × List ResponseWord)
  | [], s => some (s, [])
  | b :: bs, s =>
    match afterOk (.pushb b) s with
    | none => none
    | some p =>
      match after .update p with
      | none => none
      | some q =>
        match feed bs q.1 with
        | none => none
        | some r => some (r.1, q.2 :: r.2)

/-- Words pushed by PUSHW, each answering OK. -/
def sendWords : List Word → State → Option State
  | [], s => some s
  | w :: ws, s =>
    match afterOk (.pushw w) s with
    | none => none
    | some t => sendWords ws t

/-- UPDATE until it answers NO_NEW_DATA, after at most `n` answers OK (R300 duty 6); none where it answers otherwise. -/
def drain : (n : Nat) → State → Option State
  | n, s =>
    match after .update s with
    | none => none
    | some (t, r) =>
      if statusField r = statusCode .noNewData then some t
      else if statusField r = statusCode .ok then
        match n with
        | 0 => none
        | n + 1 => drain n t
      else none

/-- Bytes delivered to a Receiver, each by a PUSHB that answers OK and UPDATEs until NO_NEW_DATA (R190). A byte completes
at most 8 Words. -/
def deliver : List Byte → State → Option State
  | [], s => some s
  | b :: bs, s =>
    match afterOk (.pushb b) s with
    | none => none
    | some t =>
      match drain 8 t with
      | none => none
      | some u => deliver bs u

end Sys2Proof.Machine
end

