-- ==== Sys2Proof/Certificates/Slice0/Obligations.lean ====
section
/-! DEFINITION. The statements for the provers. The vocabulary is Safety.lean's. A statement's frame is written as
`t = { s with … }`: every element not named there is unchanged. -/

open Sys2Proof Sys2Proof.Machine

/-! ### Encoding (30_encoding.md) -/

/-- R101 to R103, R108: no bit of any operand is dropped by the encoding. -/
def Obligations.DecodeInvertsEncode : Prop :=
  ∀ i : Instr, decode (encode i) = .command i

/-- R108: a word names at most one command: a decoded word is the encoding of what it decodes to, and of no other
command. -/
def Obligations.EncodeInvertsDecode : Prop :=
  ∀ (w : CommandWord) (i : Instr), decode w = .command i → encode i = w ∧ ∀ j : Instr, encode j = w → j = i

/-- R103, R106, R110: words of the spec's own tables decode to the commands they stand for. -/
def Obligations.SpecWordsDecode : Prop :=
  decode 0x01000000 = .command .start ∧ decode 0x02000000 = .command .stop ∧
  decode 0x03000000 = .command .restart ∧ decode 0x04000000 = .command .update ∧
  decode 0x100000AB = .command (.pushw 0x0AB) ∧ decode 0x11000000 = .command .popw ∧
  decode 0x120000FF = .command (.pushb 0xFF) ∧ decode 0x13000000 = .command .popb ∧
  decode 0x20000008 = .command (.rdreg 8) ∧ decode 0x21000001 = .command (.peekw 1) ∧
  decode 0x22000003 = .command (.peekb 3) ∧ decode 0x00000000 = .illegal .reservedOp

/-- R106: which OP values are reserved, and that a command with one is answered ILLEGAL and changes no state. -/
def Obligations.ReservedOpAnswersIllegal : Prop :=
  ∀ w : CommandWord,
    let op := w.toNat / 2 ^ 24
    let reserved := op = 0 ∨ (0x05 ≤ op ∧ op ≤ 0x0F) ∨ (0x14 ≤ op ∧ op ≤ 0x1F) ∨ 0x23 ≤ op
    (decode w = .illegal .reservedOp ↔ reserved) ∧
    (reserved → ∀ (s : State) (rest : List CommandWord), s.cfg.WellFormed → s.resetLine = false → s.pending = w :: rest →
      step s = .next ((s.withPending rest).respond (responseWord .illegal false 0)))

/-- R107: a defined OP with a reserved operand bit set, or with a value out of range, is answered ILLEGAL and changes no
state, whatever the mode and the session. -/
def Obligations.IllegalOperandAnswersIllegal : Prop :=
  ∀ s : State, s.cfg.WellFormed →
    (∀ (w : CommandWord) (rest : List CommandWord), s.resetLine = false → s.pending = w :: rest →
      (w.toNat / 2 ^ 24 ∈ [0x01, 0x02, 0x03, 0x04, 0x11, 0x13] ∧ w.toNat % 2 ^ 24 ≠ 0 ∨
       w.toNat / 2 ^ 24 ∈ [0x12, 0x20] ∧ w.toNat / 2 ^ 8 % 2 ^ 16 ≠ 0 ∨
       w.toNat / 2 ^ 24 ∈ [0x21, 0x22] ∧ w.toNat / 2 ^ 16 % 2 ^ 8 ≠ 0) →
      step s = .next ((s.withPending rest).respond (responseWord .illegal false 0))) ∧
    (∀ word : Word, 2 ^ s.cfg.wordBits ≤ word.toNat → AnswersOnly (.pushw word) s .illegal) ∧
    (∀ reg : BitVec 8, 0x0F < reg.toNat → AnswersOnly (.rdreg reg) s .illegal) ∧
    (∀ slot : BitVec 16, s.cfg.capS ≤ slot.toNat → AnswersOnly (.peekw slot) s .illegal) ∧
    (∀ slot : BitVec 16, s.cfg.capB ≤ slot.toNat → AnswersOnly (.peekb slot) s .illegal)

/-- R110, R111: the words of every line, `OP << 24 | value` for each command; which lines are accepted: those whose words
are legal in the build, and of FEED and RECV those in their mode (log 16); the four lines of R110's examples as text; and
that every word made is legal. -/
def Obligations.AssemblerMakesLegalWords : Prop :=
  ∀ c : Config,
    assemble c (.command .start) = some [0x01000000] ∧ assemble c (.command .stop) = some [0x02000000] ∧
    assemble c (.command .restart) = some [0x03000000] ∧ assemble c (.command .update) = some [0x04000000] ∧
    assemble c (.command .popw) = some [0x11000000] ∧ assemble c (.command .popb) = some [0x13000000] ∧
    (∀ word : Word, assemble c (.command (.pushw word)) =
      if word.toNat < 2 ^ c.wordBits then some [BitVec.ofNat 32 (0x10 * 2 ^ 24 + word.toNat)] else none) ∧
    (∀ byte : Byte, assemble c (.command (.pushb byte)) = some [BitVec.ofNat 32 (0x12 * 2 ^ 24 + byte.toNat)]) ∧
    (∀ reg : BitVec 8, assemble c (.command (.rdreg reg)) =
      if reg.toNat ≤ 0x0F then some [BitVec.ofNat 32 (0x20 * 2 ^ 24 + reg.toNat)] else none) ∧
    (∀ slot : BitVec 16, assemble c (.command (.peekw slot)) =
      if slot.toNat < c.capS then some [BitVec.ofNat 32 (0x21 * 2 ^ 24 + slot.toNat)] else none) ∧
    (∀ slot : BitVec 16, assemble c (.command (.peekb slot)) =
      if slot.toNat < c.capB then some [BitVec.ofNat 32 (0x22 * 2 ^ 24 + slot.toNat)] else none) ∧
    (∀ word : Word, assemble c (.feed word) =
      if c.mode = .emitter ∧ word.toNat < 2 ^ c.wordBits then
        some [BitVec.ofNat 32 (0x10 * 2 ^ 24 + word.toNat), 0x04000000] else none) ∧
    (∀ byte : Byte, assemble c (.recv byte) =
      if c.mode = .receiver then some [BitVec.ofNat 32 (0x12 * 2 ^ 24 + byte.toNat), 0x04000000] else none) ∧
    assembleText c "PUSHW 0x0AB".toList = (if 8 ≤ c.wordBits then some [0x100000AB] else none) ∧
    assembleText c "PUSHB 0xFF".toList = some [0x120000FF] ∧
    assembleText c "RDREG BR_WR".toList = some [0x20000008] ∧
    assembleText c "PEEKB 3".toList = (if 3 < c.capB then some [0x22000003] else none) ∧
    ∀ (l : AsmLine) (ws : List CommandWord), assemble c l = some ws →
      ∀ w ∈ ws, ∃ i, decode w = .command i ∧ i.wellFormed c = true

/-! ### The step, reset and what every step keeps -/

/-- R90: the step takes the oldest pending word and runs the command it decodes to; that word no longer stands among
the pending ones, and the step adds nothing else around the command. -/
def Obligations.StepRunsDecodedCommand : Prop :=
  ∀ (s : State) (w : CommandWord) (rest : List CommandWord) (i : Instr),
    s.resetLine = false → s.pending = w :: rest → decode w = .command i →
    step s = exec i { s with pending := rest }

/-- R282: with no command presented nothing happens. That the step then shows no response is the model's choice (log 7). -/
def Obligations.StepWithoutCommandChangesNothing : Prop :=
  ∀ s : State, s.cfg.WellFormed → s.resetLine = false → s.pending = [] → step s = .next { s with response := none }

/-- R50, R280, R282: reset. That pending commands are dropped is the reading of log 6. -/
def Obligations.ResetClearsEverything : Prop :=
  ∀ s : State, s.cfg.WellFormed → s.resetLine = true →
    ∃ t, step s = .next t ∧
      t.srWr = 0 ∧ t.srRd = 0 ∧ t.srBits = 0 ∧ t.brWr = 0 ∧ t.brRd = 0 ∧ t.brBit = 0 ∧ t.brBss = 0 ∧ t.brSync = false ∧
      t.encAcc = 0 ∧ t.started = false ∧ t.srState = .inactive ∧ t.brState = .inactive ∧
      t.cfg = s.cfg ∧ t.pending = [] ∧ t.response = none ∧
      ∀ slot, (t.srBuf.read slot).toNat < 2 ^ s.cfg.wordBits

/-- R30, R47, R50: every reset state is sound, in every well-formed configuration; so is `State.reset`. -/
def Obligations.ResetStateSound : Prop :=
  State.reset.Sound ∧ ∀ (c : Config) (era : Nat), c.WellFormed → (State.powerOn c era).Sound

/-- R30, R47: the invariant of every step. -/
def Obligations.StepKeepsSound : Prop :=
  ∀ s t : State, s.Sound → step s = .next t → t.Sound

/-- R253, R300: in a sound state the block always goes on; it neither faults nor refuses. -/
def Obligations.SoundStateAlwaysSteps : Prop :=
  ∀ s : State, s.Sound → ∃ t, step s = .next t

/-- R47, R90, R280: whatever commands and resets the environment presents, in whatever order, every state reached from a
reset is sound, has the configuration it began with, and can go on. -/
def Obligations.ReachableStatesSound : Prop :=
  ∀ c : Config, c.WellFormed → ∀ s : State, Reachable c s → s.Sound ∧ s.cfg = c ∧ ∃ t, step s = .next t

/-- R6, R282: no step changes a parameter. -/
def Obligations.StepKeepsParameters : Prop :=
  ∀ s t : State, step s = .next t → t.cfg = s.cfg

/-- The buffers stay in the canonical form of log 12, from every state that has it, sound or not. -/
def Obligations.StepKeepsCanonicalForm : Prop :=
  ∀ s t : State, s.Canonical → step s = .next t → t.Canonical

/-- In canonical form, buffers with one fill that read alike everywhere are one piece of data (log 12). -/
def Obligations.CanonicalMemoriesEqualIfReadAlike : Prop :=
  ∀ (w : Nat) (m n : Memory w), m.wf = true → n.wf = true → m.fill = n.fill → (∀ slot, m.read slot = n.read slot) → m = n

/-- R281, which the spec derives from R50, R131 to R138, R150, R210 and R230 to R233: what each command answers right after
reset. -/
def Obligations.CommandsAfterReset : Prop :=
  ∀ (c : Config) (era : Nat), c.WellFormed →
    let s := State.powerOn c era
    (c.capB < 1 + (c.wordBits + 7) / 8 → AnswersOnly .start s .configError) ∧
    (1 + (c.wordBits + 7) / 8 ≤ c.capB →
      ∃ t, exec .start s = .next t ∧ t.response = some (responseWord .ok false 0)) ∧
    AnswersOnly .stop s .ok ∧ AnswersOnly .restart s .notStarted ∧ AnswersOnly .update s .notActive ∧
    (∀ word : Word, word.toNat < 2 ^ c.wordBits →
      AnswersOnly (.pushw word) s (if c.mode = .emitter then .notActive else .wrongMode)) ∧
    AnswersOnly .popb s (if c.mode = .emitter then .notActive else .wrongMode) ∧
    (∀ byte : Byte, AnswersOnly (.pushb byte) s (if c.mode = .receiver then .notActive else .wrongMode)) ∧
    AnswersOnly .popw s (if c.mode = .receiver then .notActive else .wrongMode) ∧
    (∀ reg : BitVec 8, 0x04 ≤ reg.toNat → reg.toNat ≤ 0x0F → AnswersOnly (.rdreg reg) s .ok) ∧
    exec (.rdreg 0x01) s = .next (s.respond (responseWord .ok false (BitVec.ofNat 24 c.syncPeriod))) ∧
    exec (.rdreg 0x02) s = .next (s.respond (responseWord .ok false (BitVec.ofNat 24 c.capS))) ∧
    exec (.rdreg 0x03) s = .next (s.respond (responseWord .ok false (BitVec.ofNat 24 c.capB))) ∧
    (∃ d : BitVec 24, exec (.rdreg 0x00) s = .next (s.respond (responseWord .ok false d)) ∧
      d.toNat = c.wordBits + (if c.mode = .emitter then 0 else 2 ^ 5) + c.syncSignal.toNat * 2 ^ 8) ∧
    (∀ slot : BitVec 16, slot.toNat < c.capS →
      exec (.peekw slot) s = .next (s.respond (responseWord .ok false (s.srBuf.read slot.toNat)))) ∧
    (∀ slot : BitVec 16, slot.toNat < c.capB →
      exec (.peekb slot) s = .next (s.respond (responseWord .ok false ((s.brBuf.read slot.toNat).setWidth 24))))

/-! ### Session commands (40_session.md) -/

/-- R132, R159: a START that passes its checks opens a session: both buffers zero, every cursor and counter 0, both rings
Active, and in Emitter mode the start marker at slot 1. -/
def Obligations.StartOpensSession : Prop :=
  ∀ s : State, s.cfg.WellFormed → s.srState ≠ .active → 1 + (s.cfg.wordBits + 7) / 8 ≤ s.cfg.capB →
    ∃ t, exec .start s = .next t ∧ t.response = some (responseWord .ok false 0) ∧
      t.srWr = 0 ∧ t.srRd = 0 ∧ t.srBits = 0 ∧ t.brRd = 0 ∧ t.brBit = 0 ∧ t.brBss = 0 ∧ t.brSync = false ∧ t.encAcc = 0 ∧
      t.srState = .active ∧ t.brState = .active ∧ t.started = true ∧
      (∀ slot, t.srBuf.read slot = 0) ∧
      (s.cfg.mode = .emitter →
        t.brWr = 1 ∧ t.brBuf.read 1 = s.cfg.syncSignal ∧ ∀ slot, slot ≠ 1 → t.brBuf.read slot = 0) ∧
      (s.cfg.mode = .receiver → t.brWr = 0 ∧ ∀ slot, t.brBuf.read slot = 0) ∧
      t.cfg = s.cfg ∧ t.pending = s.pending ∧ t.resetLine = s.resetLine ∧ t.powerOns = s.powerOns

/-- R131: START's two checks, in this order, with no state change. -/
def Obligations.StartChecksInOrder : Prop :=
  ∀ s : State, s.cfg.WellFormed →
    (s.srState = .active → AnswersOnly .start s .stateError) ∧
    (s.srState ≠ .active → s.cfg.capB < 1 + (s.cfg.wordBits + 7) / 8 → AnswersOnly .start s .configError)

/-- R135, R136: STOP is legal in every state; it makes both rings Inactive, in Receiver mode also clears `BR.SYNC`, and
keeps everything else. -/
def Obligations.StopClosesSessionInEveryState : Prop :=
  ∀ s : State, s.cfg.WellFormed →
    exec .stop s = .next { s with
      srState := .inactive, brState := .inactive,
      brSync := (if s.cfg.mode = .receiver then false else s.brSync),
      response := some (responseWord .ok false 0) }

/-- R138, R159: RESTART sends every cursor and counter to 0 and keeps the buffers, but for the restart marker of Emitter
mode at slot 1. -/
def Obligations.RestartRewindsAndKeepsBuffers : Prop :=
  ∀ s : State, s.cfg.WellFormed → s.started = true →
    ∃ t, exec .restart s = .next t ∧ t.response = some (responseWord .ok false 0) ∧
      t.srState = .active ∧ t.brState = .active ∧
      t.srWr = 0 ∧ t.srRd = 0 ∧ t.srBits = 0 ∧ t.brRd = 0 ∧ t.brBit = 0 ∧ t.brBss = 0 ∧ t.brSync = false ∧ t.encAcc = 0 ∧
      (∀ slot, t.srBuf.read slot = s.srBuf.read slot) ∧
      (s.cfg.mode = .emitter →
        t.brWr = 1 ∧ t.brBuf.read 1 = s.cfg.syncSignal ∧ ∀ slot, slot ≠ 1 → t.brBuf.read slot = s.brBuf.read slot) ∧
      (s.cfg.mode = .receiver → t.brWr = 0 ∧ ∀ slot, t.brBuf.read slot = s.brBuf.read slot) ∧
      t.started = true ∧ t.cfg = s.cfg ∧ t.pending = s.pending ∧ t.resetLine = s.resetLine ∧ t.powerOns = s.powerOns

/-- R138: without a START since reset, RESTART answers NOT_STARTED and changes nothing. -/
def Obligations.RestartNeedsStart : Prop :=
  ∀ s : State, s.cfg.WellFormed → s.started = false → AnswersOnly .restart s .notStarted

/-- R133, which the spec derives from R132, R75 and R159: neither START nor RESTART ever answers OVERRUN. -/
def Obligations.StartAndRestartNeverOverrun : Prop :=
  ∀ (s t : State) (i : Instr) (r : ResponseWord), i = .start ∨ i = .restart →
    exec i s = .next t → t.response = some r → statusField r ≠ statusCode .overrun

/-- R130: only START, STOP and RESTART write the ring states and `SES.STARTED`, and they are never WRONG_MODE. -/
def Obligations.OnlySessionCommandsWriteSession : Prop :=
  ∀ (s t : State) (i : Instr), exec i s = .next t →
    (i ≠ .start → i ≠ .stop → i ≠ .restart →
      t.srState = s.srState ∧ t.brState = s.brState ∧ t.started = s.started) ∧
    (i = .start ∨ i = .stop ∨ i = .restart →
      ∀ r, t.response = some r → statusField r ≠ statusCode .wrongMode)

/-- R47 item 5 as written, after R136's STOP: it does not survive, because STOP clears `BR.SYNC` and keeps the cursors
(log 10). Expected to FAIL. -/
def Obligations.StopKeepsUnsynchronizedRingEmpty : Prop :=
  ∀ s t : State, s.Sound → s.cfg.mode = .receiver → (s.brSync = false → s.brRd = s.brWr ∧ s.brBit = 0) →
    exec .stop s = .next t → (t.brSync = false → t.brRd = t.brWr ∧ t.brBit = 0)

/-! ### Ring ports (43_ring_ports.md) -/

/-- R210: the two checks of every port and what no port touches. -/
def Obligations.PortChecksInOrder : Prop :=
  ∀ s : State, s.cfg.WellFormed →
    (s.cfg.mode = .receiver →
      (∀ word : Word, word.toNat < 2 ^ s.cfg.wordBits → AnswersOnly (.pushw word) s .wrongMode) ∧
      AnswersOnly .popb s .wrongMode ∧
      (s.brState = .inactive → ∀ byte : Byte, AnswersOnly (.pushb byte) s .notActive) ∧
      (s.srState = .inactive → AnswersOnly .popw s .notActive)) ∧
    (s.cfg.mode = .emitter →
      (∀ byte : Byte, AnswersOnly (.pushb byte) s .wrongMode) ∧
      AnswersOnly .popw s .wrongMode ∧
      (s.srState = .inactive → ∀ word : Word, word.toNat < 2 ^ s.cfg.wordBits → AnswersOnly (.pushw word) s .notActive) ∧
      (s.brState = .inactive → AnswersOnly .popb s .notActive)) ∧
    ∀ (i : Instr) (t : State), (i = .popb ∨ i = .popw ∨ (∃ w, i = .pushw w) ∨ ∃ b, i = .pushb b) →
      exec i s = .next t →
      t.srBits = s.srBits ∧ t.brBit = s.brBit ∧ t.encAcc = s.encAcc ∧ t.brSync = s.brSync ∧ t.brBss = s.brBss

/-- R211: PUSHW into a ring that is not full writes the next slot and nothing else. -/
def Obligations.PushwWritesNextSlot : Prop :=
  ∀ (s : State) (word : Word), s.cfg.WellFormed → word.toNat < 2 ^ s.cfg.wordBits → s.cfg.mode = .emitter →
    s.srState = .active → s.fullS = false →
    ∃ t, exec (.pushw word) s = .next t ∧ t.response = some (responseWord .ok false 0) ∧
      t.srWr = s.nextWriteS ∧ t.srBuf.read s.nextWriteS.toNat = word ∧
      (∀ slot, slot ≠ s.nextWriteS.toNat → t.srBuf.read slot = s.srBuf.read slot) ∧
      t = { s with srWr := t.srWr, srBuf := t.srBuf, response := t.response }

/-- R213: PUSHB into a ring that is not full writes the next slot and nothing else. -/
def Obligations.PushbWritesNextSlot : Prop :=
  ∀ (s : State) (byte : Byte), s.cfg.WellFormed → s.cfg.mode = .receiver → s.brState = .active → s.fullB = false →
    ∃ t, exec (.pushb byte) s = .next t ∧ t.response = some (responseWord .ok false 0) ∧
      t.brWr = s.nextWriteB ∧ t.brBuf.read s.nextWriteB.toNat = byte ∧
      (∀ slot, slot ≠ s.nextWriteB.toNat → t.brBuf.read slot = s.brBuf.read slot) ∧
      t = { s with brWr := t.brWr, brBuf := t.brBuf, response := t.response }

/-- R212: POPB answers the oldest unread byte and moves `BR.RD` alone. -/
def Obligations.PopbAnswersNextByte : Prop :=
  ∀ s : State, s.cfg.WellFormed → s.cfg.mode = .emitter → s.brState = .active → s.emptyB = false →
    exec .popb s = .next { s with
      brRd := s.nextReadB,
      response := some (responseWord .ok false ((s.brBuf.read s.nextReadB.toNat).setWidth 24)) }

/-- R214: POPW answers the oldest unread Word and moves `SR.RD` alone. -/
def Obligations.PopwAnswersNextWord : Prop :=
  ∀ s : State, s.cfg.WellFormed → s.cfg.mode = .receiver → s.srState = .active → s.emptyS = false →
    exec .popw s = .next { s with
      srRd := s.nextReadS,
      response := some (responseWord .ok false (s.srBuf.read s.nextReadS.toNat)) }

/-- R211, R213, R215: a push into a full ring answers OVERRUN and changes no slot and no cursor. -/
def Obligations.PushIntoFullRingOverruns : Prop :=
  ∀ s : State, s.cfg.WellFormed →
    (s.cfg.mode = .emitter → s.srState = .active → s.fullS = true →
      ∀ word : Word, word.toNat < 2 ^ s.cfg.wordBits → AnswersOnly (.pushw word) s .overrun) ∧
    (s.cfg.mode = .receiver → s.brState = .active → s.fullB = true →
      ∀ byte : Byte, AnswersOnly (.pushb byte) s .overrun)

/-- R77: the empty ring, at each of its consumers. -/
def Obligations.EmptyRingAtItsConsumers : Prop :=
  ∀ s : State, s.cfg.WellFormed →
    (s.cfg.mode = .emitter → s.brState = .active → s.emptyB = true → AnswersOnly .popb s .empty) ∧
    (s.cfg.mode = .receiver → s.srState = .active → s.emptyS = true → AnswersOnly .popw s .empty) ∧
    (s.InRange → s.cfg.mode = .emitter → s.srState = .active → s.emptyS = true → AnswersOnly .update s .noNewData) ∧
    (s.InRange → s.cfg.mode = .receiver → s.srState = .active → s.brSync = true → s.markerSeen = false →
      s.avail < s.cfg.wordBits → AnswersOnly .update s .noNewData)

/-- R74, R75: a ring is full when it holds one item fewer than its capacity, empty when it holds none. -/
def Obligations.RingHoldsOneLessThanCapacity : Prop :=
  ∀ s : State, s.cfg.WellFormed → s.InRange →
    (s.fullS = true ↔ s.depthS = s.cfg.capS - 1) ∧ (s.emptyS = true ↔ s.depthS = 0) ∧ s.depthS ≤ s.cfg.capS - 1 ∧
    (s.fullB = true ↔ s.depthB = s.cfg.capB - 1) ∧ (s.emptyB = true ↔ s.depthB = 0) ∧ s.depthB ≤ s.cfg.capB - 1

/-- R74, R212, R214: the rings are first in, first out at the ports. -/
def Obligations.PortsAreFirstInFirstOut : Prop :=
  ∀ s t : State, s.Sound →
    (∀ word, exec (.pushw word) s = .next t → t.response = some (responseWord .ok false 0) →
      t.unreadWords = s.unreadWords ++ [word] ∧ t.unreadBytes = s.unreadBytes) ∧
    (∀ byte, exec (.pushb byte) s = .next t → t.response = some (responseWord .ok false 0) →
      t.unreadBytes = s.unreadBytes ++ [byte] ∧ t.unreadWords = s.unreadWords) ∧
    (∀ data, exec .popb s = .next t → t.response = some (responseWord .ok false data) →
      ∃ byte : Byte, data = byte.setWidth 24 ∧ s.unreadBytes = byte :: t.unreadBytes ∧ t.unreadWords = s.unreadWords) ∧
    (∀ data, exec .popw s = .next t → t.response = some (responseWord .ok false data) →
      s.unreadWords = data :: t.unreadWords ∧ t.unreadBytes = s.unreadBytes)

/-- R76, R78, R286: no command but START and RESTART, which empty the rings, loses or overwrites an unread item other than
by moving `RD` over it: as many items as `RD` moved by, never more than were unread, are gone from the old end, and as many
as `WR` moved by have come at the new end. -/
def Obligations.UnreadItemsNeverOverwritten : Prop :=
  ∀ (s t : State) (i : Instr), s.Sound → i ≠ .start → i ≠ .restart → exec i s = .next t →
    let takenS := depth t.srRd s.srRd s.cfg.capS
    let takenB := depth t.brRd s.brRd s.cfg.capB
    (takenS ≤ s.depthS ∧ ∃ new, new.length = depth t.srWr s.srWr s.cfg.capS ∧
      t.unreadWords = s.unreadWords.drop takenS ++ new) ∧
    (takenB ≤ s.depthB ∧ ∃ new, new.length = depth t.brWr s.brWr s.cfg.capB ∧
      t.unreadBytes = s.unreadBytes.drop takenB ++ new)

/-! ### Readback (44_readback.md) -/

/-- R230, R231: RDREG answers each register of the map and changes nothing else. -/
def Obligations.RdregAnswersEachRegister : Prop :=
  ∀ s : State, s.cfg.WellFormed →
    let answers := fun (n : BitVec 8) (v : Nat) =>
      ∃ d : BitVec 24, exec (.rdreg n) s = .next (s.respond (responseWord .ok false d)) ∧ d.toNat = v
    let code := fun st : RingState => match st with
      | .inactive => 0
      | .active => 1
      | .busy => 2
    answers 0x00 (s.cfg.wordBits + (if s.cfg.mode = .emitter then 0 else 2 ^ 5) + s.cfg.syncSignal.toNat * 2 ^ 8) ∧
    answers 0x01 s.cfg.syncPeriod ∧ answers 0x02 s.cfg.capS ∧ answers 0x03 s.cfg.capB ∧
    answers 0x04 s.srWr.toNat ∧ answers 0x05 s.srRd.toNat ∧ answers 0x06 s.srBits.toNat ∧ answers 0x07 (code s.srState) ∧
    answers 0x08 s.brWr.toNat ∧ answers 0x09 s.brRd.toNat ∧ answers 0x0A s.brBit.toNat ∧ answers 0x0B (code s.brState) ∧
    answers 0x0C s.brSync.toNat ∧ answers 0x0D s.brBss.toNat ∧ answers 0x0E s.encAcc.toNat ∧
    answers 0x0F s.started.toNat

/-- R232, R233: PEEKW and PEEKB answer a slot's contents, in both modes and every session state, and change nothing
else. -/
def Obligations.PeeksAnswerSlots : Prop :=
  ∀ (s : State) (slot : BitVec 16), s.cfg.WellFormed →
    (slot.toNat < s.cfg.capS →
      exec (.peekw slot) s = .next (s.respond (responseWord .ok false (s.srBuf.read slot.toNat)))) ∧
    (slot.toNat < s.cfg.capB →
      exec (.peekb slot) s = .next (s.respond (responseWord .ok false ((s.brBuf.read slot.toNat).setWidth 24))))

/-- R31, R301: states that RDREG cannot tell apart agree on every element outside the buffers and on every parameter but
`FLIP_INDEX`. -/
def Obligations.RegistersShowEveryElement : Prop :=
  ∀ s t : State, s.cfg.WellFormed → t.cfg.WellFormed →
    (∀ (reg : BitVec 8) (s' t' : State), reg.toNat ≤ 0x0F → exec (.rdreg reg) s = .next s' → exec (.rdreg reg) t = .next t' →
      s'.response = t'.response) →
    s.srWr = t.srWr ∧ s.srRd = t.srRd ∧ s.srBits = t.srBits ∧ s.srState = t.srState ∧
    s.brWr = t.brWr ∧ s.brRd = t.brRd ∧ s.brBit = t.brBit ∧ s.brSync = t.brSync ∧ s.brBss = t.brBss ∧
    s.brState = t.brState ∧ s.encAcc = t.encAcc ∧ s.started = t.started ∧
    s.cfg.mode = t.cfg.mode ∧ s.cfg.wordBits = t.cfg.wordBits ∧ s.cfg.syncSignal = t.cfg.syncSignal ∧
    s.cfg.syncPeriod = t.cfg.syncPeriod ∧ s.cfg.capS = t.cfg.capS ∧ s.cfg.capB = t.cfg.capB

/-! ### UPDATE and the Encoder (41_encoder.md) -/

/-- R150: UPDATE outside a session answers NOT_ACTIVE and changes nothing, in both modes. -/
def Obligations.UpdateNeedsActiveSession : Prop :=
  ∀ s : State, s.cfg.WellFormed → s.srState ≠ .active → AnswersOnly .update s .notActive

/-- R155, R161: disambiguation flips bit `FLIP_INDEX(done, k, r)`, and no other, of a byte equal to the marker, and no bit of
any other byte; what it gives is never the marker. -/
def Obligations.DisambiguationFlipsOneBitOfAMarkerByte : Prop :=
  ∀ (c : Config) (done : Bool) (k r : Nat) (d : Byte),
    (∀ j : Nat, (disambiguate c done k r d).getLsbD j =
      (d.getLsbD j ^^ (decide (d = c.syncSignal) && decide (j = (flipIndex c done k r).toNat)))) ∧
    disambiguate c done k r d ≠ c.syncSignal

/-- R158: the default `FLIP_INDEX`. -/
def Obligations.DefaultFlipIndex : Prop :=
  ∀ (c : Config) (k r : Nat), c.flip = .specDefault →
    flipIndex c true k r = 0 ∧
    (1 ≤ k → k < 8 → (flipIndex c false k r).toNat = k) ∧
    (flipIndex c false 8 r).toNat = (8 - r % 8) % 8

/-- R6, R158: a build may take any function of `(done, k, r)` with values in 0..7 as its `FLIP_INDEX`. -/
def Obligations.FlipTableRealizesAnyFunction : Prop :=
  ∀ (c : Config) (f : Bool → Nat → Nat → BitVec 3),
    ∃ entries : List (BitVec 3), (FlipIndex.table entries).wellFormed = true ∧
      ∀ (done : Bool) (k r : Nat), 1 ≤ k → k ≤ 8 → r < 24 →
        flipIndex { c with flip := .table entries } done k r = f done k r

/-- R156, R157, R162: `PushData`. The byte goes to the next slot or is dropped where the ring is full; it is counted either
way; a marker follows exactly when it is data byte number P-1 of its run, and the count goes back to 0 even where that
marker is dropped. -/
def Obligations.PushDataCountsAndInsertsMarkers : Prop :=
  ∀ (s : State) (d : Byte), s.cfg.WellFormed → s.InRange → s.brBss.toNat + 2 ≤ s.cfg.syncPeriod →
    let t := (pushData d s).1
    let ok := (pushData d s).2
    let slot₁ := s.nextWriteB
    let slot₂ := inc slot₁ s.cfg.capB
    t.brBss.toNat = (s.brBss.toNat + 1) % (s.cfg.syncPeriod - 1) ∧
    (if s.fullB = true then ok = false ∧ t.brWr = s.brWr ∧ t.brBuf = s.brBuf
     else if s.brBss.toNat + 2 < s.cfg.syncPeriod then
      ok = true ∧ t.brWr = slot₁ ∧ t.brBuf.read slot₁.toNat = d ∧
      ∀ a, a ≠ slot₁.toNat → t.brBuf.read a = s.brBuf.read a
     else if slot₂ = s.brRd then
      ok = false ∧ t.brWr = slot₁ ∧ t.brBuf.read slot₁.toNat = d ∧
      ∀ a, a ≠ slot₁.toNat → t.brBuf.read a = s.brBuf.read a
     else
      ok = true ∧ t.brWr = slot₂ ∧ t.brBuf.read slot₁.toNat = d ∧ t.brBuf.read slot₂.toNat = s.cfg.syncSignal ∧
      ∀ a, a ≠ slot₁.toNat → a ≠ slot₂.toNat → t.brBuf.read a = s.brBuf.read a) ∧
    t = { s with brWr := t.brWr, brBuf := t.brBuf, brBss := t.brBss }

/-- R157, R160: the three outcomes of an Encoder UPDATE. It overruns exactly where the BitRing has no room for all it has to
push; then what it pushed before the drop stays, data byte number `n` or the marker after it is the one dropped, the `8 * n`
bits packed are gone from the SampleRing, and no bit is held back. -/
def Obligations.EncoderUpdateOutcomes : Prop :=
  ∀ s : State, s.Sound → s.cfg.mode = .emitter → s.srState = .active →
    (s.emptyS = true → AnswersOnly .update s .noNewData) ∧
    (s.emptyS = false → s.outgoing.length ≤ s.roomB →
      ∃ t, exec .update s = .next t ∧ t.response = some (responseWord .ok true 0) ∧ t.srRd = s.srWr ∧ t.srBits = 0) ∧
    (s.emptyS = false → s.roomB < s.outgoing.length →
      ∃ t, exec .update s = .next t ∧ t.response = some (responseWord .overrun false 0) ∧
        t.encAcc = 0 ∧ t.brBit = 0 ∧ t.fullB = true ∧
        t.unreadBytes = s.unreadBytes ++ s.outgoing.take s.roomB ∧
        ∃ n, n < s.sentBytes.length ∧
          (withMarkers s.cfg s.brBss.toNat (s.sentBytes.take n)).length ≤ s.roomB ∧
          s.roomB < (withMarkers s.cfg s.brBss.toNat (s.sentBytes.take (n + 1))).length ∧
          t.bitsToPack = s.bitsToPack.drop (8 * (n + 1)) ∧
          t.brBss.toNat = (s.brBss.toNat + (n + 1)) % (s.cfg.syncPeriod - 1))

/-- R152 to R158, R164, R165: where the BitRing has room for all of it, an Encoder UPDATE turns the bits before it into whole
bytes, most significant bit first, sends each as itself, or with bit `FLIP_INDEX(done, k, r)` flipped where it equals the
marker, puts a marker after every P-1 data bytes, and holds the last bits back; it answers OK with READY. -/
def Obligations.EncoderStreamsPackedBits : Prop :=
  ∀ s : State, s.Sound → s.cfg.mode = .emitter → s.srState = .active → s.emptyS = false →
    s.outgoing.length ≤ s.roomB →
    let bits := s.bitsToPack
    let n := bits.length / 8
    ∃ t : State, exec .update s = .next t ∧ t.response = some (responseWord .ok true 0) ∧
      t.unreadBytes = s.unreadBytes ++ s.outgoing ∧
      t.heldBits = bits.drop (8 * n) ∧ t.brBit.toNat = bits.length % 8 ∧
      t.srRd = s.srWr ∧ t.srBits = 0 ∧ t.brBss.toNat = (s.brBss.toNat + n) % (s.cfg.syncPeriod - 1) ∧
      t = { s with
        srRd := t.srRd, srBits := t.srBits, brBit := t.brBit, encAcc := t.encAcc,
        brWr := t.brWr, brBuf := t.brBuf, brBss := t.brBss, response := t.response }

/-- R162, R164: whatever its outcome, an Encoder UPDATE packs every bit it takes: the Words consumed, the bits of a Word
left half packed, the `n` data bytes completed, pushed or dropped, and the bits held back add up, and the count of R156
moves by `n`. -/
def Obligations.EncoderConservesBits : Prop :=
  ∀ s t : State, s.Sound → s.cfg.mode = .emitter → s.srState = .active → exec .update s = .next t →
    t.depthS ≤ s.depthS ∧
    ∃ n, (s.depthS - t.depthS) * s.cfg.wordBits + t.srBits.toNat + s.brBit.toNat
          = 8 * n + t.brBit.toNat + s.srBits.toNat ∧
      t.brBss.toNat = (s.brBss.toNat + n) % (s.cfg.syncPeriod - 1)

/-- R151: what an Encoder UPDATE never writes, whatever its outcome: of the BitRing it writes only the slots after the old
`BR.WR` up to the new one, so every byte that was unread stays as it was, and what follows them is as much of what it has
to push, from the front, as there is room for. -/
def Obligations.EncoderUpdateFrame : Prop :=
  ∀ s t : State, s.Sound → s.cfg.mode = .emitter → exec .update s = .next t →
    t = { s with
      srRd := t.srRd, srBits := t.srBits, brBit := t.brBit, encAcc := t.encAcc,
      brWr := t.brWr, brBuf := t.brBuf, brBss := t.brBss, response := t.response } ∧
    (∀ slot : Cursor, slot.toNat < s.cfg.capB →
      (slot = s.brWr ∨ depth t.brWr s.brWr s.cfg.capB < depth slot s.brWr s.cfg.capB) →
      t.brBuf.read slot.toNat = s.brBuf.read slot.toNat) ∧
    (∀ a, s.cfg.capB ≤ a → t.brBuf.read a = s.brBuf.read a) ∧
    (s.srState = .active → t.unreadBytes = s.unreadBytes ++ s.outgoing.take s.roomB) ∧
    (s.srState ≠ .active → t.unreadBytes = s.unreadBytes)

/-! ### The Decoder (42_decoder.md) -/

/-- R181: a marker seen as the newest byte synchronizes, whether or not the Decoder was synchronized before, discards every
unread bit, and answers NO_NEW_DATA. -/
def Obligations.DecoderSynchronizesOnNewestMarker : Prop :=
  ∀ s : State, s.cfg.WellFormed → s.InRange → s.cfg.mode = .receiver → s.srState = .active →
    s.brWr ≠ s.brRd → s.brBuf.read s.brWr.toNat = s.cfg.syncSignal →
    exec .update s = .next { s with
      brSync := true, brRd := s.brWr, brBit := 0, brBss := 0, response := some (responseWord .noNewData false 0) }

/-- R182: an unsynchronized Decoder that sees no marker discards every byte and answers SYNC_WAITING. -/
def Obligations.UnsynchronizedDecoderDiscardsBytes : Prop :=
  ∀ s : State, s.cfg.WellFormed → s.InRange → s.cfg.mode = .receiver → s.srState = .active → s.brSync = false →
    (s.brWr = s.brRd ∨ s.brBuf.read s.brWr.toNat ≠ s.cfg.syncSignal) →
    exec .update s = .next { s with
      brRd := s.brWr, brBit := 0, response := some (responseWord .syncWaiting false 0) }

/-- R184 to R186, R188: a synchronized Decoder with a Word's bits before it takes exactly those bits, most significant
first, as one Word into the next slot of the SampleRing, and answers OK with READY. -/
def Obligations.DecoderExtractsOneWord : Prop :=
  ∀ s : State, s.Sound → s.cfg.mode = .receiver → s.srState = .active → s.brSync = true → s.markerSeen = false →
    s.cfg.wordBits ≤ s.avail → s.fullS = false →
    ∃ (t : State) (word : Word), exec .update s = .next t ∧ t.response = some (responseWord .ok true 0) ∧
      word.toNat < 2 ^ s.cfg.wordBits ∧ msbBits s.cfg.wordBits word = s.unreadBits.take s.cfg.wordBits ∧
      t.unreadBits = s.unreadBits.drop s.cfg.wordBits ∧
      t.srWr = s.nextWriteS ∧ t.srBuf.read s.nextWriteS.toNat = word ∧
      (∀ slot, slot ≠ s.nextWriteS.toNat → t.srBuf.read slot = s.srBuf.read slot) ∧
      t.brRd.toNat = (s.brRd.toNat + (s.brBit.toNat + s.cfg.wordBits) / 8) % s.cfg.capB ∧
      t.brBit.toNat = (s.brBit.toNat + s.cfg.wordBits) % 8 ∧
      t.brBss.toNat = min (s.brBss.toNat + (s.brBit.toNat + s.cfg.wordBits) / 8) 65535 ∧
      t = { s with
        srWr := t.srWr, srBuf := t.srBuf, brRd := t.brRd, brBit := t.brBit, brBss := t.brBss, response := t.response }

/-- R185: with the SampleRing full the Word is discarded and its bits are consumed all the same. -/
def Obligations.DecoderOverrunConsumesTheBits : Prop :=
  ∀ s : State, s.Sound → s.cfg.mode = .receiver → s.srState = .active → s.brSync = true → s.markerSeen = false →
    s.cfg.wordBits ≤ s.avail → s.fullS = true →
    ∃ t : State, exec .update s = .next t ∧ t.response = some (responseWord .overrun false 0) ∧
      t.unreadBits = s.unreadBits.drop s.cfg.wordBits ∧
      t = { s with brRd := t.brRd, brBit := t.brBit, brBss := t.brBss, response := t.response }

/-- R180, R188: what a Decoder UPDATE never writes, whatever its outcome, and that it yields at most one Word. -/
def Obligations.DecoderUpdateFrame : Prop :=
  ∀ s t : State, s.cfg.mode = .receiver → exec .update s = .next t →
    t = { s with
      srWr := t.srWr, srBuf := t.srBuf, brSync := t.brSync, brRd := t.brRd, brBit := t.brBit, brBss := t.brBss,
      response := t.response } ∧
    (t.srWr = s.srWr ∧ t.srBuf = s.srBuf ∨
     t.srWr = s.nextWriteS ∧ t.response = some (responseWord .ok true 0) ∧
      ∀ slot, slot ≠ s.nextWriteS.toNat → t.srBuf.read slot = s.srBuf.read slot)

/-- R189: an unsynchronized Receiver fed any bytes without a marker, each followed by one UPDATE, and then a marker, takes
every byte (`feed` asks that each PUSHB answer OK), waits at each of them, synchronizes at the marker, has produced no Word,
and stands before the next byte. -/
def Obligations.SynchronizationAcquiredAfterAnyPrefix : Prop :=
  ∀ (s : State) (bytes : List Byte), s.Sound → s.cfg.mode = .receiver → s.srState = .active → s.brSync = false →
    s.emptyB = true → (∀ b ∈ bytes, b ≠ s.cfg.syncSignal) →
    ∃ t, feed (bytes ++ [s.cfg.syncSignal]) s
        = some (t, List.replicate bytes.length (responseWord .syncWaiting false 0) ++ [responseWord .noNewData false 0]) ∧
      t.brSync = true ∧ t.emptyB = true ∧ t.brBit = 0 ∧ t.brBss = 0 ∧ t.srWr = s.srWr ∧ t.srRd = s.srRd ∧ t.srBuf = s.srBuf

/-- R190, for one batch: the Words of one Encoder UPDATE, right after START, whose bytes never equal the marker, delivered
byte by byte to a Receiver of the same configuration, come out as they went in, but for the last whose bits are not all
sent, provided every marker falls between two Words or none is due yet, and no command overruns. -/
def Obligations.RoundTripOfOneBatch : Prop :=
  ∀ (c : Config) (words : List Word) (e₀ e₁ e₂ r₀ r₁ : State),
    c.WellFormed → c.mode = .emitter → words ≠ [] →
    afterOk .start (State.powerOn c 0) = some e₀ → sendWords words e₀ = some e₁ → afterOk .update e₁ = some e₂ →
    (∀ d ∈ bytesOfBits (words.length * c.wordBits / 8) e₁.bitsToPack, d ≠ c.syncSignal) →
    (c.wordBits ∣ 8 * (c.syncPeriod - 1) ∨ words.length * c.wordBits / 8 < c.syncPeriod - 1) →
    afterOk .start (State.powerOn { c with mode := .receiver } 0) = some r₀ → deliver e₂.unreadBytes r₀ = some r₁ →
    r₁.unreadWords = words.take (8 * (words.length * c.wordBits / 8) / c.wordBits)

/-! ### Responses and agents (60_exceptions.md, 00_scope.md) -/

/-- R104, R105, R250, R256: the response of every command. -/
def Obligations.EveryResponseIsWellFormed : Prop :=
  ∀ (s t : State) (i : Instr), exec i s = .next t →
    ∃ (st : Status) (ready : Bool) (data : BitVec 24), t.response = some (responseWord st ready data) ∧
      st ≠ .allocFailure ∧ (ready = true ↔ i = .update ∧ st = .ok) ∧ (st ≠ .ok → data = 0) ∧
      (data ≠ 0 → i = .popb ∨ i = .popw ∨ (∃ n, i = .rdreg n) ∨ (∃ n, i = .peekw n) ∨ ∃ n, i = .peekb n)

/-- R104, R250: where the fields of a response stand, and the code of each status. -/
def Obligations.ResponseFieldsStandInPlace : Prop :=
  (∀ (st : Status) (ready : Bool) (data : BitVec 24),
    (responseWord st ready data).toNat = data.toNat * 2 ^ 8 + ready.toNat * 2 ^ 4 + (statusCode st).toNat) ∧
  statusCode .ok = 0 ∧ statusCode .syncWaiting = 1 ∧ statusCode .noNewData = 2 ∧ statusCode .overrun = 3 ∧
  statusCode .configError = 4 ∧ statusCode .allocFailure = 5 ∧ statusCode .empty = 6 ∧ statusCode .notActive = 7 ∧
  statusCode .notStarted = 8 ∧ statusCode .stateError = 9 ∧ statusCode .wrongMode = 10 ∧ statusCode .illegal = 11

/-- R252, R77: a command that fails a check, or finds its ring empty, changes no state at all. -/
def Obligations.FailedChecksChangeNothing : Prop :=
  ∀ (s t : State) (i : Instr) (st : Status) (ready : Bool) (data : BitVec 24), exec i s = .next t →
    t.response = some (responseWord st ready data) →
    st ∈ [Status.illegal, .wrongMode, .stateError, .notStarted, .notActive, .configError, .empty] →
    t = { s with response := t.response }

/-- R11, R210: a legal command is WRONG_MODE exactly when no agent issues it in the build's mode. -/
def Obligations.WrongModeExactlyWhereNoAgentIssues : Prop :=
  ∀ (s t : State) (i : Instr), i.wellFormed s.cfg = true → exec i s = .next t →
    ((∃ r, t.response = some r ∧ statusField r = statusCode .wrongMode) ↔ ∀ a : Agent, a.issues s.cfg.mode i = false)
end

