-- ==== Sys2Proof/Laws/Cursor.lean ====
section
/-! SUPPORT. Cursor arithmetic: `inc` stays in its ring, and the depth of two cursors of one ring. -/

namespace Sys2Proof.Machine

/-- The number `inc` computes, in a ring whose slots a cursor can name. -/
theorem toNat_inc (i : Cursor) {cap : Nat} (h0 : 0 < cap) (h : cap ≤ 65536) :
    (inc i cap).toNat = (i.toNat + 1) % cap := by
  have hlt : (i.toNat + 1) % cap < cap := Nat.mod_lt _ h0
  simp only [inc, BitVec.toNat_ofNat]
  exact Nat.mod_eq_of_lt (by omega)

/-- `inc` never leaves the ring (20_memory.md R71, R73). -/
theorem inc_lt (i : Cursor) {cap : Nat} (h0 : 0 < cap) (h : cap ≤ 65536) : (inc i cap).toNat < cap := by
  rw [toNat_inc i h0 h]; exact Nat.mod_lt _ h0

/-- After a slot below the last comes the one above it; after the last comes slot 0 (R73). -/
theorem toNat_inc_cases (i : Cursor) {cap : Nat} (hi : i.toNat < cap) (h : cap ≤ 65536) :
    (i.toNat + 1 < cap ∧ (inc i cap).toNat = i.toNat + 1) ∨ (i.toNat + 1 = cap ∧ (inc i cap).toNat = 0) := by
  rw [toNat_inc i (by omega) h]
  rcases Nat.lt_or_ge (i.toNat + 1) cap with hlt | hge
  · exact .inl ⟨hlt, Nat.mod_eq_of_lt hlt⟩
  · have he : i.toNat + 1 = cap := by omega
    exact .inr ⟨he, by simp [he]⟩

/-- The depth of two cursors of one ring, without the modulus (R74). -/
theorem depth_eq (wr rd : Cursor) {cap : Nat} (hw : wr.toNat < cap) (hr : rd.toNat < cap) :
    depth wr rd cap = if rd.toNat ≤ wr.toNat then wr.toNat - rd.toNat else wr.toNat + cap - rd.toNat := by
  unfold depth
  split
  · rename_i h
    rw [Int.emod_eq_of_lt (by omega) (by omega)]
    omega
  · rename_i h
    have e : ((wr.toNat : Int) - (rd.toNat : Int)) % (cap : Int)
        = ((wr.toNat : Int) - (rd.toNat : Int) + (cap : Int)) % (cap : Int) := by simp
    rw [e, Int.emod_eq_of_lt (by omega) (by omega)]
    omega

/-- A depth is below the capacity (R47 item 1). -/
theorem depth_lt (wr rd : Cursor) {cap : Nat} (h0 : 0 < cap) : depth wr rd cap < cap := by
  have h1 := Int.emod_lt_of_pos ((wr.toNat : Int) - (rd.toNat : Int)) (by exact_mod_cast h0 : (0 : Int) < (cap : Int))
  have h2 := Int.emod_nonneg ((wr.toNat : Int) - (rd.toNat : Int)) (by omega : (cap : Int) ≠ 0)
  unfold depth
  omega

/-- A ring is empty exactly when its depth is 0 (R74). -/
theorem depth_eq_zero_iff (wr rd : Cursor) {cap : Nat} (hw : wr.toNat < cap) (hr : rd.toNat < cap) :
    depth wr rd cap = 0 ↔ wr = rd := by
  rw [depth_eq wr rd hw hr]
  constructor
  · intro h
    apply BitVec.eq_of_toNat_eq
    split at h <;> omega
  · rintro rfl
    simp

end Sys2Proof.Machine
end

