-- ==== Sys2Proof/Laws/State.lean ====
section
/-! SUPPORT. One lemma per field per named update of the state, each true by definition, so that no later proof unfolds
a record update. -/

namespace Sys2Proof.Machine

variable (s : State)

@[simp] theorem State.putWord_srBuf (w : Word) : (s.putWord w).srBuf = s.srBuf.write s.nextWriteS.toNat w := rfl
@[simp] theorem State.putWord_srWr (w : Word) : (s.putWord w).srWr = s.nextWriteS := rfl
@[simp] theorem State.putWord_srRd (w : Word) : (s.putWord w).srRd = s.srRd := rfl
@[simp] theorem State.putWord_srBits (w : Word) : (s.putWord w).srBits = s.srBits := rfl
@[simp] theorem State.putWord_srState (w : Word) : (s.putWord w).srState = s.srState := rfl
@[simp] theorem State.putWord_brBuf (w : Word) : (s.putWord w).brBuf = s.brBuf := rfl
@[simp] theorem State.putWord_brWr (w : Word) : (s.putWord w).brWr = s.brWr := rfl
@[simp] theorem State.putWord_brRd (w : Word) : (s.putWord w).brRd = s.brRd := rfl
@[simp] theorem State.putWord_brBit (w : Word) : (s.putWord w).brBit = s.brBit := rfl
@[simp] theorem State.putWord_brSync (w : Word) : (s.putWord w).brSync = s.brSync := rfl
@[simp] theorem State.putWord_brBss (w : Word) : (s.putWord w).brBss = s.brBss := rfl
@[simp] theorem State.putWord_brState (w : Word) : (s.putWord w).brState = s.brState := rfl
@[simp] theorem State.putWord_encAcc (w : Word) : (s.putWord w).encAcc = s.encAcc := rfl
@[simp] theorem State.putWord_started (w : Word) : (s.putWord w).started = s.started := rfl
@[simp] theorem State.putWord_cfg (w : Word) : (s.putWord w).cfg = s.cfg := rfl
@[simp] theorem State.putWord_pending (w : Word) : (s.putWord w).pending = s.pending := rfl
@[simp] theorem State.putWord_resetLine (w : Word) : (s.putWord w).resetLine = s.resetLine := rfl
@[simp] theorem State.putWord_response (w : Word) : (s.putWord w).response = s.response := rfl
@[simp] theorem State.putWord_powerOns (w : Word) : (s.putWord w).powerOns = s.powerOns := rfl

@[simp] theorem State.putByte_srBuf (b : Byte) : (s.putByte b).srBuf = s.srBuf := rfl
@[simp] theorem State.putByte_srWr (b : Byte) : (s.putByte b).srWr = s.srWr := rfl
@[simp] theorem State.putByte_srRd (b : Byte) : (s.putByte b).srRd = s.srRd := rfl
@[simp] theorem State.putByte_srBits (b : Byte) : (s.putByte b).srBits = s.srBits := rfl
@[simp] theorem State.putByte_srState (b : Byte) : (s.putByte b).srState = s.srState := rfl
@[simp] theorem State.putByte_brBuf (b : Byte) : (s.putByte b).brBuf = s.brBuf.write s.nextWriteB.toNat b := rfl
@[simp] theorem State.putByte_brWr (b : Byte) : (s.putByte b).brWr = s.nextWriteB := rfl
@[simp] theorem State.putByte_brRd (b : Byte) : (s.putByte b).brRd = s.brRd := rfl
@[simp] theorem State.putByte_brBit (b : Byte) : (s.putByte b).brBit = s.brBit := rfl
@[simp] theorem State.putByte_brSync (b : Byte) : (s.putByte b).brSync = s.brSync := rfl
@[simp] theorem State.putByte_brBss (b : Byte) : (s.putByte b).brBss = s.brBss := rfl
@[simp] theorem State.putByte_brState (b : Byte) : (s.putByte b).brState = s.brState := rfl
@[simp] theorem State.putByte_encAcc (b : Byte) : (s.putByte b).encAcc = s.encAcc := rfl
@[simp] theorem State.putByte_started (b : Byte) : (s.putByte b).started = s.started := rfl
@[simp] theorem State.putByte_cfg (b : Byte) : (s.putByte b).cfg = s.cfg := rfl
@[simp] theorem State.putByte_pending (b : Byte) : (s.putByte b).pending = s.pending := rfl
@[simp] theorem State.putByte_resetLine (b : Byte) : (s.putByte b).resetLine = s.resetLine := rfl
@[simp] theorem State.putByte_response (b : Byte) : (s.putByte b).response = s.response := rfl
@[simp] theorem State.putByte_powerOns (b : Byte) : (s.putByte b).powerOns = s.powerOns := rfl

@[simp] theorem State.takeWord_srBuf : (s.takeWord).srBuf = s.srBuf := rfl
@[simp] theorem State.takeWord_srWr : (s.takeWord).srWr = s.srWr := rfl
@[simp] theorem State.takeWord_srRd : (s.takeWord).srRd = s.nextReadS := rfl
@[simp] theorem State.takeWord_srBits : (s.takeWord).srBits = s.srBits := rfl
@[simp] theorem State.takeWord_srState : (s.takeWord).srState = s.srState := rfl
@[simp] theorem State.takeWord_brBuf : (s.takeWord).brBuf = s.brBuf := rfl
@[simp] theorem State.takeWord_brWr : (s.takeWord).brWr = s.brWr := rfl
@[simp] theorem State.takeWord_brRd : (s.takeWord).brRd = s.brRd := rfl
@[simp] theorem State.takeWord_brBit : (s.takeWord).brBit = s.brBit := rfl
@[simp] theorem State.takeWord_brSync : (s.takeWord).brSync = s.brSync := rfl
@[simp] theorem State.takeWord_brBss : (s.takeWord).brBss = s.brBss := rfl
@[simp] theorem State.takeWord_brState : (s.takeWord).brState = s.brState := rfl
@[simp] theorem State.takeWord_encAcc : (s.takeWord).encAcc = s.encAcc := rfl
@[simp] theorem State.takeWord_started : (s.takeWord).started = s.started := rfl
@[simp] theorem State.takeWord_cfg : (s.takeWord).cfg = s.cfg := rfl
@[simp] theorem State.takeWord_pending : (s.takeWord).pending = s.pending := rfl
@[simp] theorem State.takeWord_resetLine : (s.takeWord).resetLine = s.resetLine := rfl
@[simp] theorem State.takeWord_response : (s.takeWord).response = s.response := rfl
@[simp] theorem State.takeWord_powerOns : (s.takeWord).powerOns = s.powerOns := rfl

@[simp] theorem State.takeByte_srBuf : (s.takeByte).srBuf = s.srBuf := rfl
@[simp] theorem State.takeByte_srWr : (s.takeByte).srWr = s.srWr := rfl
@[simp] theorem State.takeByte_srRd : (s.takeByte).srRd = s.srRd := rfl
@[simp] theorem State.takeByte_srBits : (s.takeByte).srBits = s.srBits := rfl
@[simp] theorem State.takeByte_srState : (s.takeByte).srState = s.srState := rfl
@[simp] theorem State.takeByte_brBuf : (s.takeByte).brBuf = s.brBuf := rfl
@[simp] theorem State.takeByte_brWr : (s.takeByte).brWr = s.brWr := rfl
@[simp] theorem State.takeByte_brRd : (s.takeByte).brRd = s.nextReadB := rfl
@[simp] theorem State.takeByte_brBit : (s.takeByte).brBit = s.brBit := rfl
@[simp] theorem State.takeByte_brSync : (s.takeByte).brSync = s.brSync := rfl
@[simp] theorem State.takeByte_brBss : (s.takeByte).brBss = s.brBss := rfl
@[simp] theorem State.takeByte_brState : (s.takeByte).brState = s.brState := rfl
@[simp] theorem State.takeByte_encAcc : (s.takeByte).encAcc = s.encAcc := rfl
@[simp] theorem State.takeByte_started : (s.takeByte).started = s.started := rfl
@[simp] theorem State.takeByte_cfg : (s.takeByte).cfg = s.cfg := rfl
@[simp] theorem State.takeByte_pending : (s.takeByte).pending = s.pending := rfl
@[simp] theorem State.takeByte_resetLine : (s.takeByte).resetLine = s.resetLine := rfl
@[simp] theorem State.takeByte_response : (s.takeByte).response = s.response := rfl
@[simp] theorem State.takeByte_powerOns : (s.takeByte).powerOns = s.powerOns := rfl

@[simp] theorem State.zeroFill_srBuf : (s.zeroFill).srBuf = Memory.zeroed 24 := rfl
@[simp] theorem State.zeroFill_srWr : (s.zeroFill).srWr = s.srWr := rfl
@[simp] theorem State.zeroFill_srRd : (s.zeroFill).srRd = s.srRd := rfl
@[simp] theorem State.zeroFill_srBits : (s.zeroFill).srBits = s.srBits := rfl
@[simp] theorem State.zeroFill_srState : (s.zeroFill).srState = s.srState := rfl
@[simp] theorem State.zeroFill_brBuf : (s.zeroFill).brBuf = Memory.zeroed 8 := rfl
@[simp] theorem State.zeroFill_brWr : (s.zeroFill).brWr = s.brWr := rfl
@[simp] theorem State.zeroFill_brRd : (s.zeroFill).brRd = s.brRd := rfl
@[simp] theorem State.zeroFill_brBit : (s.zeroFill).brBit = s.brBit := rfl
@[simp] theorem State.zeroFill_brSync : (s.zeroFill).brSync = s.brSync := rfl
@[simp] theorem State.zeroFill_brBss : (s.zeroFill).brBss = s.brBss := rfl
@[simp] theorem State.zeroFill_brState : (s.zeroFill).brState = s.brState := rfl
@[simp] theorem State.zeroFill_encAcc : (s.zeroFill).encAcc = s.encAcc := rfl
@[simp] theorem State.zeroFill_started : (s.zeroFill).started = s.started := rfl
@[simp] theorem State.zeroFill_cfg : (s.zeroFill).cfg = s.cfg := rfl
@[simp] theorem State.zeroFill_pending : (s.zeroFill).pending = s.pending := rfl
@[simp] theorem State.zeroFill_resetLine : (s.zeroFill).resetLine = s.resetLine := rfl
@[simp] theorem State.zeroFill_response : (s.zeroFill).response = s.response := rfl
@[simp] theorem State.zeroFill_powerOns : (s.zeroFill).powerOns = s.powerOns := rfl

@[simp] theorem State.clearCursors_srBuf : (s.clearCursors).srBuf = s.srBuf := rfl
@[simp] theorem State.clearCursors_srWr : (s.clearCursors).srWr = 0 := rfl
@[simp] theorem State.clearCursors_srRd : (s.clearCursors).srRd = 0 := rfl
@[simp] theorem State.clearCursors_srBits : (s.clearCursors).srBits = 0 := rfl
@[simp] theorem State.clearCursors_srState : (s.clearCursors).srState = s.srState := rfl
@[simp] theorem State.clearCursors_brBuf : (s.clearCursors).brBuf = s.brBuf := rfl
@[simp] theorem State.clearCursors_brWr : (s.clearCursors).brWr = 0 := rfl
@[simp] theorem State.clearCursors_brRd : (s.clearCursors).brRd = 0 := rfl
@[simp] theorem State.clearCursors_brBit : (s.clearCursors).brBit = 0 := rfl
@[simp] theorem State.clearCursors_brSync : (s.clearCursors).brSync = false := rfl
@[simp] theorem State.clearCursors_brBss : (s.clearCursors).brBss = 0 := rfl
@[simp] theorem State.clearCursors_brState : (s.clearCursors).brState = s.brState := rfl
@[simp] theorem State.clearCursors_encAcc : (s.clearCursors).encAcc = 0 := rfl
@[simp] theorem State.clearCursors_started : (s.clearCursors).started = s.started := rfl
@[simp] theorem State.clearCursors_cfg : (s.clearCursors).cfg = s.cfg := rfl
@[simp] theorem State.clearCursors_pending : (s.clearCursors).pending = s.pending := rfl
@[simp] theorem State.clearCursors_resetLine : (s.clearCursors).resetLine = s.resetLine := rfl
@[simp] theorem State.clearCursors_response : (s.clearCursors).response = s.response := rfl
@[simp] theorem State.clearCursors_powerOns : (s.clearCursors).powerOns = s.powerOns := rfl

@[simp] theorem State.activate_srBuf : (s.activate).srBuf = s.srBuf := rfl
@[simp] theorem State.activate_srWr : (s.activate).srWr = s.srWr := rfl
@[simp] theorem State.activate_srRd : (s.activate).srRd = s.srRd := rfl
@[simp] theorem State.activate_srBits : (s.activate).srBits = s.srBits := rfl
@[simp] theorem State.activate_srState : (s.activate).srState = .active := rfl
@[simp] theorem State.activate_brBuf : (s.activate).brBuf = s.brBuf := rfl
@[simp] theorem State.activate_brWr : (s.activate).brWr = s.brWr := rfl
@[simp] theorem State.activate_brRd : (s.activate).brRd = s.brRd := rfl
@[simp] theorem State.activate_brBit : (s.activate).brBit = s.brBit := rfl
@[simp] theorem State.activate_brSync : (s.activate).brSync = s.brSync := rfl
@[simp] theorem State.activate_brBss : (s.activate).brBss = s.brBss := rfl
@[simp] theorem State.activate_brState : (s.activate).brState = .active := rfl
@[simp] theorem State.activate_encAcc : (s.activate).encAcc = s.encAcc := rfl
@[simp] theorem State.activate_started : (s.activate).started = s.started := rfl
@[simp] theorem State.activate_cfg : (s.activate).cfg = s.cfg := rfl
@[simp] theorem State.activate_pending : (s.activate).pending = s.pending := rfl
@[simp] theorem State.activate_resetLine : (s.activate).resetLine = s.resetLine := rfl
@[simp] theorem State.activate_response : (s.activate).response = s.response := rfl
@[simp] theorem State.activate_powerOns : (s.activate).powerOns = s.powerOns := rfl

@[simp] theorem State.deactivate_srBuf : (s.deactivate).srBuf = s.srBuf := rfl
@[simp] theorem State.deactivate_srWr : (s.deactivate).srWr = s.srWr := rfl
@[simp] theorem State.deactivate_srRd : (s.deactivate).srRd = s.srRd := rfl
@[simp] theorem State.deactivate_srBits : (s.deactivate).srBits = s.srBits := rfl
@[simp] theorem State.deactivate_srState : (s.deactivate).srState = .inactive := rfl
@[simp] theorem State.deactivate_brBuf : (s.deactivate).brBuf = s.brBuf := rfl
@[simp] theorem State.deactivate_brWr : (s.deactivate).brWr = s.brWr := rfl
@[simp] theorem State.deactivate_brRd : (s.deactivate).brRd = s.brRd := rfl
@[simp] theorem State.deactivate_brBit : (s.deactivate).brBit = s.brBit := rfl
@[simp] theorem State.deactivate_brSync : (s.deactivate).brSync = s.brSync := rfl
@[simp] theorem State.deactivate_brBss : (s.deactivate).brBss = s.brBss := rfl
@[simp] theorem State.deactivate_brState : (s.deactivate).brState = .inactive := rfl
@[simp] theorem State.deactivate_encAcc : (s.deactivate).encAcc = s.encAcc := rfl
@[simp] theorem State.deactivate_started : (s.deactivate).started = s.started := rfl
@[simp] theorem State.deactivate_cfg : (s.deactivate).cfg = s.cfg := rfl
@[simp] theorem State.deactivate_pending : (s.deactivate).pending = s.pending := rfl
@[simp] theorem State.deactivate_resetLine : (s.deactivate).resetLine = s.resetLine := rfl
@[simp] theorem State.deactivate_response : (s.deactivate).response = s.response := rfl
@[simp] theorem State.deactivate_powerOns : (s.deactivate).powerOns = s.powerOns := rfl

@[simp] theorem State.discardBytes_srBuf : (s.discardBytes).srBuf = s.srBuf := rfl
@[simp] theorem State.discardBytes_srWr : (s.discardBytes).srWr = s.srWr := rfl
@[simp] theorem State.discardBytes_srRd : (s.discardBytes).srRd = s.srRd := rfl
@[simp] theorem State.discardBytes_srBits : (s.discardBytes).srBits = s.srBits := rfl
@[simp] theorem State.discardBytes_srState : (s.discardBytes).srState = s.srState := rfl
@[simp] theorem State.discardBytes_brBuf : (s.discardBytes).brBuf = s.brBuf := rfl
@[simp] theorem State.discardBytes_brWr : (s.discardBytes).brWr = s.brWr := rfl
@[simp] theorem State.discardBytes_brRd : (s.discardBytes).brRd = s.brWr := rfl
@[simp] theorem State.discardBytes_brBit : (s.discardBytes).brBit = 0 := rfl
@[simp] theorem State.discardBytes_brSync : (s.discardBytes).brSync = s.brSync := rfl
@[simp] theorem State.discardBytes_brBss : (s.discardBytes).brBss = s.brBss := rfl
@[simp] theorem State.discardBytes_brState : (s.discardBytes).brState = s.brState := rfl
@[simp] theorem State.discardBytes_encAcc : (s.discardBytes).encAcc = s.encAcc := rfl
@[simp] theorem State.discardBytes_started : (s.discardBytes).started = s.started := rfl
@[simp] theorem State.discardBytes_cfg : (s.discardBytes).cfg = s.cfg := rfl
@[simp] theorem State.discardBytes_pending : (s.discardBytes).pending = s.pending := rfl
@[simp] theorem State.discardBytes_resetLine : (s.discardBytes).resetLine = s.resetLine := rfl
@[simp] theorem State.discardBytes_response : (s.discardBytes).response = s.response := rfl
@[simp] theorem State.discardBytes_powerOns : (s.discardBytes).powerOns = s.powerOns := rfl

@[simp] theorem State.markSynchronized_srBuf : (s.markSynchronized).srBuf = s.srBuf := rfl
@[simp] theorem State.markSynchronized_srWr : (s.markSynchronized).srWr = s.srWr := rfl
@[simp] theorem State.markSynchronized_srRd : (s.markSynchronized).srRd = s.srRd := rfl
@[simp] theorem State.markSynchronized_srBits : (s.markSynchronized).srBits = s.srBits := rfl
@[simp] theorem State.markSynchronized_srState : (s.markSynchronized).srState = s.srState := rfl
@[simp] theorem State.markSynchronized_brBuf : (s.markSynchronized).brBuf = s.brBuf := rfl
@[simp] theorem State.markSynchronized_brWr : (s.markSynchronized).brWr = s.brWr := rfl
@[simp] theorem State.markSynchronized_brRd : (s.markSynchronized).brRd = s.brRd := rfl
@[simp] theorem State.markSynchronized_brBit : (s.markSynchronized).brBit = s.brBit := rfl
@[simp] theorem State.markSynchronized_brSync : (s.markSynchronized).brSync = true := rfl
@[simp] theorem State.markSynchronized_brBss : (s.markSynchronized).brBss = 0 := rfl
@[simp] theorem State.markSynchronized_brState : (s.markSynchronized).brState = s.brState := rfl
@[simp] theorem State.markSynchronized_encAcc : (s.markSynchronized).encAcc = s.encAcc := rfl
@[simp] theorem State.markSynchronized_started : (s.markSynchronized).started = s.started := rfl
@[simp] theorem State.markSynchronized_cfg : (s.markSynchronized).cfg = s.cfg := rfl
@[simp] theorem State.markSynchronized_pending : (s.markSynchronized).pending = s.pending := rfl
@[simp] theorem State.markSynchronized_resetLine : (s.markSynchronized).resetLine = s.resetLine := rfl
@[simp] theorem State.markSynchronized_response : (s.markSynchronized).response = s.response := rfl
@[simp] theorem State.markSynchronized_powerOns : (s.markSynchronized).powerOns = s.powerOns := rfl

@[simp] theorem State.clearSync_srBuf : (s.clearSync).srBuf = s.srBuf := rfl
@[simp] theorem State.clearSync_srWr : (s.clearSync).srWr = s.srWr := rfl
@[simp] theorem State.clearSync_srRd : (s.clearSync).srRd = s.srRd := rfl
@[simp] theorem State.clearSync_srBits : (s.clearSync).srBits = s.srBits := rfl
@[simp] theorem State.clearSync_srState : (s.clearSync).srState = s.srState := rfl
@[simp] theorem State.clearSync_brBuf : (s.clearSync).brBuf = s.brBuf := rfl
@[simp] theorem State.clearSync_brWr : (s.clearSync).brWr = s.brWr := rfl
@[simp] theorem State.clearSync_brRd : (s.clearSync).brRd = s.brRd := rfl
@[simp] theorem State.clearSync_brBit : (s.clearSync).brBit = s.brBit := rfl
@[simp] theorem State.clearSync_brSync : (s.clearSync).brSync = false := rfl
@[simp] theorem State.clearSync_brBss : (s.clearSync).brBss = s.brBss := rfl
@[simp] theorem State.clearSync_brState : (s.clearSync).brState = s.brState := rfl
@[simp] theorem State.clearSync_encAcc : (s.clearSync).encAcc = s.encAcc := rfl
@[simp] theorem State.clearSync_started : (s.clearSync).started = s.started := rfl
@[simp] theorem State.clearSync_cfg : (s.clearSync).cfg = s.cfg := rfl
@[simp] theorem State.clearSync_pending : (s.clearSync).pending = s.pending := rfl
@[simp] theorem State.clearSync_resetLine : (s.clearSync).resetLine = s.resetLine := rfl
@[simp] theorem State.clearSync_response : (s.clearSync).response = s.response := rfl
@[simp] theorem State.clearSync_powerOns : (s.clearSync).powerOns = s.powerOns := rfl

@[simp] theorem State.markStarted_srBuf : (s.markStarted).srBuf = s.srBuf := rfl
@[simp] theorem State.markStarted_srWr : (s.markStarted).srWr = s.srWr := rfl
@[simp] theorem State.markStarted_srRd : (s.markStarted).srRd = s.srRd := rfl
@[simp] theorem State.markStarted_srBits : (s.markStarted).srBits = s.srBits := rfl
@[simp] theorem State.markStarted_srState : (s.markStarted).srState = s.srState := rfl
@[simp] theorem State.markStarted_brBuf : (s.markStarted).brBuf = s.brBuf := rfl
@[simp] theorem State.markStarted_brWr : (s.markStarted).brWr = s.brWr := rfl
@[simp] theorem State.markStarted_brRd : (s.markStarted).brRd = s.brRd := rfl
@[simp] theorem State.markStarted_brBit : (s.markStarted).brBit = s.brBit := rfl
@[simp] theorem State.markStarted_brSync : (s.markStarted).brSync = s.brSync := rfl
@[simp] theorem State.markStarted_brBss : (s.markStarted).brBss = s.brBss := rfl
@[simp] theorem State.markStarted_brState : (s.markStarted).brState = s.brState := rfl
@[simp] theorem State.markStarted_encAcc : (s.markStarted).encAcc = s.encAcc := rfl
@[simp] theorem State.markStarted_started : (s.markStarted).started = true := rfl
@[simp] theorem State.markStarted_cfg : (s.markStarted).cfg = s.cfg := rfl
@[simp] theorem State.markStarted_pending : (s.markStarted).pending = s.pending := rfl
@[simp] theorem State.markStarted_resetLine : (s.markStarted).resetLine = s.resetLine := rfl
@[simp] theorem State.markStarted_response : (s.markStarted).response = s.response := rfl
@[simp] theorem State.markStarted_powerOns : (s.markStarted).powerOns = s.powerOns := rfl

@[simp] theorem State.withCount_srBuf (v : BitVec 16) : (s.withCount v).srBuf = s.srBuf := rfl
@[simp] theorem State.withCount_srWr (v : BitVec 16) : (s.withCount v).srWr = s.srWr := rfl
@[simp] theorem State.withCount_srRd (v : BitVec 16) : (s.withCount v).srRd = s.srRd := rfl
@[simp] theorem State.withCount_srBits (v : BitVec 16) : (s.withCount v).srBits = s.srBits := rfl
@[simp] theorem State.withCount_srState (v : BitVec 16) : (s.withCount v).srState = s.srState := rfl
@[simp] theorem State.withCount_brBuf (v : BitVec 16) : (s.withCount v).brBuf = s.brBuf := rfl
@[simp] theorem State.withCount_brWr (v : BitVec 16) : (s.withCount v).brWr = s.brWr := rfl
@[simp] theorem State.withCount_brRd (v : BitVec 16) : (s.withCount v).brRd = s.brRd := rfl
@[simp] theorem State.withCount_brBit (v : BitVec 16) : (s.withCount v).brBit = s.brBit := rfl
@[simp] theorem State.withCount_brSync (v : BitVec 16) : (s.withCount v).brSync = s.brSync := rfl
@[simp] theorem State.withCount_brBss (v : BitVec 16) : (s.withCount v).brBss = v := rfl
@[simp] theorem State.withCount_brState (v : BitVec 16) : (s.withCount v).brState = s.brState := rfl
@[simp] theorem State.withCount_encAcc (v : BitVec 16) : (s.withCount v).encAcc = s.encAcc := rfl
@[simp] theorem State.withCount_started (v : BitVec 16) : (s.withCount v).started = s.started := rfl
@[simp] theorem State.withCount_cfg (v : BitVec 16) : (s.withCount v).cfg = s.cfg := rfl
@[simp] theorem State.withCount_pending (v : BitVec 16) : (s.withCount v).pending = s.pending := rfl
@[simp] theorem State.withCount_resetLine (v : BitVec 16) : (s.withCount v).resetLine = s.resetLine := rfl
@[simp] theorem State.withCount_response (v : BitVec 16) : (s.withCount v).response = s.response := rfl
@[simp] theorem State.withCount_powerOns (v : BitVec 16) : (s.withCount v).powerOns = s.powerOns := rfl

@[simp] theorem State.withBit_srBuf (v : BitVec 3) : (s.withBit v).srBuf = s.srBuf := rfl
@[simp] theorem State.withBit_srWr (v : BitVec 3) : (s.withBit v).srWr = s.srWr := rfl
@[simp] theorem State.withBit_srRd (v : BitVec 3) : (s.withBit v).srRd = s.srRd := rfl
@[simp] theorem State.withBit_srBits (v : BitVec 3) : (s.withBit v).srBits = s.srBits := rfl
@[simp] theorem State.withBit_srState (v : BitVec 3) : (s.withBit v).srState = s.srState := rfl
@[simp] theorem State.withBit_brBuf (v : BitVec 3) : (s.withBit v).brBuf = s.brBuf := rfl
@[simp] theorem State.withBit_brWr (v : BitVec 3) : (s.withBit v).brWr = s.brWr := rfl
@[simp] theorem State.withBit_brRd (v : BitVec 3) : (s.withBit v).brRd = s.brRd := rfl
@[simp] theorem State.withBit_brBit (v : BitVec 3) : (s.withBit v).brBit = v := rfl
@[simp] theorem State.withBit_brSync (v : BitVec 3) : (s.withBit v).brSync = s.brSync := rfl
@[simp] theorem State.withBit_brBss (v : BitVec 3) : (s.withBit v).brBss = s.brBss := rfl
@[simp] theorem State.withBit_brState (v : BitVec 3) : (s.withBit v).brState = s.brState := rfl
@[simp] theorem State.withBit_encAcc (v : BitVec 3) : (s.withBit v).encAcc = s.encAcc := rfl
@[simp] theorem State.withBit_started (v : BitVec 3) : (s.withBit v).started = s.started := rfl
@[simp] theorem State.withBit_cfg (v : BitVec 3) : (s.withBit v).cfg = s.cfg := rfl
@[simp] theorem State.withBit_pending (v : BitVec 3) : (s.withBit v).pending = s.pending := rfl
@[simp] theorem State.withBit_resetLine (v : BitVec 3) : (s.withBit v).resetLine = s.resetLine := rfl
@[simp] theorem State.withBit_response (v : BitVec 3) : (s.withBit v).response = s.response := rfl
@[simp] theorem State.withBit_powerOns (v : BitVec 3) : (s.withBit v).powerOns = s.powerOns := rfl

@[simp] theorem State.withAcc_srBuf (v : Byte) : (s.withAcc v).srBuf = s.srBuf := rfl
@[simp] theorem State.withAcc_srWr (v : Byte) : (s.withAcc v).srWr = s.srWr := rfl
@[simp] theorem State.withAcc_srRd (v : Byte) : (s.withAcc v).srRd = s.srRd := rfl
@[simp] theorem State.withAcc_srBits (v : Byte) : (s.withAcc v).srBits = s.srBits := rfl
@[simp] theorem State.withAcc_srState (v : Byte) : (s.withAcc v).srState = s.srState := rfl
@[simp] theorem State.withAcc_brBuf (v : Byte) : (s.withAcc v).brBuf = s.brBuf := rfl
@[simp] theorem State.withAcc_brWr (v : Byte) : (s.withAcc v).brWr = s.brWr := rfl
@[simp] theorem State.withAcc_brRd (v : Byte) : (s.withAcc v).brRd = s.brRd := rfl
@[simp] theorem State.withAcc_brBit (v : Byte) : (s.withAcc v).brBit = s.brBit := rfl
@[simp] theorem State.withAcc_brSync (v : Byte) : (s.withAcc v).brSync = s.brSync := rfl
@[simp] theorem State.withAcc_brBss (v : Byte) : (s.withAcc v).brBss = s.brBss := rfl
@[simp] theorem State.withAcc_brState (v : Byte) : (s.withAcc v).brState = s.brState := rfl
@[simp] theorem State.withAcc_encAcc (v : Byte) : (s.withAcc v).encAcc = v := rfl
@[simp] theorem State.withAcc_started (v : Byte) : (s.withAcc v).started = s.started := rfl
@[simp] theorem State.withAcc_cfg (v : Byte) : (s.withAcc v).cfg = s.cfg := rfl
@[simp] theorem State.withAcc_pending (v : Byte) : (s.withAcc v).pending = s.pending := rfl
@[simp] theorem State.withAcc_resetLine (v : Byte) : (s.withAcc v).resetLine = s.resetLine := rfl
@[simp] theorem State.withAcc_response (v : Byte) : (s.withAcc v).response = s.response := rfl
@[simp] theorem State.withAcc_powerOns (v : Byte) : (s.withAcc v).powerOns = s.powerOns := rfl

@[simp] theorem State.withBits_srBuf (v : BitVec 5) : (s.withBits v).srBuf = s.srBuf := rfl
@[simp] theorem State.withBits_srWr (v : BitVec 5) : (s.withBits v).srWr = s.srWr := rfl
@[simp] theorem State.withBits_srRd (v : BitVec 5) : (s.withBits v).srRd = s.srRd := rfl
@[simp] theorem State.withBits_srBits (v : BitVec 5) : (s.withBits v).srBits = v := rfl
@[simp] theorem State.withBits_srState (v : BitVec 5) : (s.withBits v).srState = s.srState := rfl
@[simp] theorem State.withBits_brBuf (v : BitVec 5) : (s.withBits v).brBuf = s.brBuf := rfl
@[simp] theorem State.withBits_brWr (v : BitVec 5) : (s.withBits v).brWr = s.brWr := rfl
@[simp] theorem State.withBits_brRd (v : BitVec 5) : (s.withBits v).brRd = s.brRd := rfl
@[simp] theorem State.withBits_brBit (v : BitVec 5) : (s.withBits v).brBit = s.brBit := rfl
@[simp] theorem State.withBits_brSync (v : BitVec 5) : (s.withBits v).brSync = s.brSync := rfl
@[simp] theorem State.withBits_brBss (v : BitVec 5) : (s.withBits v).brBss = s.brBss := rfl
@[simp] theorem State.withBits_brState (v : BitVec 5) : (s.withBits v).brState = s.brState := rfl
@[simp] theorem State.withBits_encAcc (v : BitVec 5) : (s.withBits v).encAcc = s.encAcc := rfl
@[simp] theorem State.withBits_started (v : BitVec 5) : (s.withBits v).started = s.started := rfl
@[simp] theorem State.withBits_cfg (v : BitVec 5) : (s.withBits v).cfg = s.cfg := rfl
@[simp] theorem State.withBits_pending (v : BitVec 5) : (s.withBits v).pending = s.pending := rfl
@[simp] theorem State.withBits_resetLine (v : BitVec 5) : (s.withBits v).resetLine = s.resetLine := rfl
@[simp] theorem State.withBits_response (v : BitVec 5) : (s.withBits v).response = s.response := rfl
@[simp] theorem State.withBits_powerOns (v : BitVec 5) : (s.withBits v).powerOns = s.powerOns := rfl

@[simp] theorem State.consumeWord_srBuf (slot : Cursor) : (s.consumeWord slot).srBuf = s.srBuf := rfl
@[simp] theorem State.consumeWord_srWr (slot : Cursor) : (s.consumeWord slot).srWr = s.srWr := rfl
@[simp] theorem State.consumeWord_srRd (slot : Cursor) : (s.consumeWord slot).srRd = slot := rfl
@[simp] theorem State.consumeWord_srBits (slot : Cursor) : (s.consumeWord slot).srBits = 0 := rfl
@[simp] theorem State.consumeWord_srState (slot : Cursor) : (s.consumeWord slot).srState = s.srState := rfl
@[simp] theorem State.consumeWord_brBuf (slot : Cursor) : (s.consumeWord slot).brBuf = s.brBuf := rfl
@[simp] theorem State.consumeWord_brWr (slot : Cursor) : (s.consumeWord slot).brWr = s.brWr := rfl
@[simp] theorem State.consumeWord_brRd (slot : Cursor) : (s.consumeWord slot).brRd = s.brRd := rfl
@[simp] theorem State.consumeWord_brBit (slot : Cursor) : (s.consumeWord slot).brBit = s.brBit := rfl
@[simp] theorem State.consumeWord_brSync (slot : Cursor) : (s.consumeWord slot).brSync = s.brSync := rfl
@[simp] theorem State.consumeWord_brBss (slot : Cursor) : (s.consumeWord slot).brBss = s.brBss := rfl
@[simp] theorem State.consumeWord_brState (slot : Cursor) : (s.consumeWord slot).brState = s.brState := rfl
@[simp] theorem State.consumeWord_encAcc (slot : Cursor) : (s.consumeWord slot).encAcc = s.encAcc := rfl
@[simp] theorem State.consumeWord_started (slot : Cursor) : (s.consumeWord slot).started = s.started := rfl
@[simp] theorem State.consumeWord_cfg (slot : Cursor) : (s.consumeWord slot).cfg = s.cfg := rfl
@[simp] theorem State.consumeWord_pending (slot : Cursor) : (s.consumeWord slot).pending = s.pending := rfl
@[simp] theorem State.consumeWord_resetLine (slot : Cursor) : (s.consumeWord slot).resetLine = s.resetLine := rfl
@[simp] theorem State.consumeWord_response (slot : Cursor) : (s.consumeWord slot).response = s.response := rfl
@[simp] theorem State.consumeWord_powerOns (slot : Cursor) : (s.consumeWord slot).powerOns = s.powerOns := rfl

@[simp] theorem State.unanswered_srBuf : (s.unanswered).srBuf = s.srBuf := rfl
@[simp] theorem State.unanswered_srWr : (s.unanswered).srWr = s.srWr := rfl
@[simp] theorem State.unanswered_srRd : (s.unanswered).srRd = s.srRd := rfl
@[simp] theorem State.unanswered_srBits : (s.unanswered).srBits = s.srBits := rfl
@[simp] theorem State.unanswered_srState : (s.unanswered).srState = s.srState := rfl
@[simp] theorem State.unanswered_brBuf : (s.unanswered).brBuf = s.brBuf := rfl
@[simp] theorem State.unanswered_brWr : (s.unanswered).brWr = s.brWr := rfl
@[simp] theorem State.unanswered_brRd : (s.unanswered).brRd = s.brRd := rfl
@[simp] theorem State.unanswered_brBit : (s.unanswered).brBit = s.brBit := rfl
@[simp] theorem State.unanswered_brSync : (s.unanswered).brSync = s.brSync := rfl
@[simp] theorem State.unanswered_brBss : (s.unanswered).brBss = s.brBss := rfl
@[simp] theorem State.unanswered_brState : (s.unanswered).brState = s.brState := rfl
@[simp] theorem State.unanswered_encAcc : (s.unanswered).encAcc = s.encAcc := rfl
@[simp] theorem State.unanswered_started : (s.unanswered).started = s.started := rfl
@[simp] theorem State.unanswered_cfg : (s.unanswered).cfg = s.cfg := rfl
@[simp] theorem State.unanswered_pending : (s.unanswered).pending = s.pending := rfl
@[simp] theorem State.unanswered_resetLine : (s.unanswered).resetLine = s.resetLine := rfl
@[simp] theorem State.unanswered_response : (s.unanswered).response = none := rfl
@[simp] theorem State.unanswered_powerOns : (s.unanswered).powerOns = s.powerOns := rfl

@[simp] theorem State.respond_srBuf (r : ResponseWord) : (s.respond r).srBuf = s.srBuf := rfl
@[simp] theorem State.respond_srWr (r : ResponseWord) : (s.respond r).srWr = s.srWr := rfl
@[simp] theorem State.respond_srRd (r : ResponseWord) : (s.respond r).srRd = s.srRd := rfl
@[simp] theorem State.respond_srBits (r : ResponseWord) : (s.respond r).srBits = s.srBits := rfl
@[simp] theorem State.respond_srState (r : ResponseWord) : (s.respond r).srState = s.srState := rfl
@[simp] theorem State.respond_brBuf (r : ResponseWord) : (s.respond r).brBuf = s.brBuf := rfl
@[simp] theorem State.respond_brWr (r : ResponseWord) : (s.respond r).brWr = s.brWr := rfl
@[simp] theorem State.respond_brRd (r : ResponseWord) : (s.respond r).brRd = s.brRd := rfl
@[simp] theorem State.respond_brBit (r : ResponseWord) : (s.respond r).brBit = s.brBit := rfl
@[simp] theorem State.respond_brSync (r : ResponseWord) : (s.respond r).brSync = s.brSync := rfl
@[simp] theorem State.respond_brBss (r : ResponseWord) : (s.respond r).brBss = s.brBss := rfl
@[simp] theorem State.respond_brState (r : ResponseWord) : (s.respond r).brState = s.brState := rfl
@[simp] theorem State.respond_encAcc (r : ResponseWord) : (s.respond r).encAcc = s.encAcc := rfl
@[simp] theorem State.respond_started (r : ResponseWord) : (s.respond r).started = s.started := rfl
@[simp] theorem State.respond_cfg (r : ResponseWord) : (s.respond r).cfg = s.cfg := rfl
@[simp] theorem State.respond_pending (r : ResponseWord) : (s.respond r).pending = s.pending := rfl
@[simp] theorem State.respond_resetLine (r : ResponseWord) : (s.respond r).resetLine = s.resetLine := rfl
@[simp] theorem State.respond_response (r : ResponseWord) : (s.respond r).response = some r := rfl
@[simp] theorem State.respond_powerOns (r : ResponseWord) : (s.respond r).powerOns = s.powerOns := rfl

@[simp] theorem State.present_srBuf (w : CommandWord) : (s.present w).srBuf = s.srBuf := rfl
@[simp] theorem State.present_srWr (w : CommandWord) : (s.present w).srWr = s.srWr := rfl
@[simp] theorem State.present_srRd (w : CommandWord) : (s.present w).srRd = s.srRd := rfl
@[simp] theorem State.present_srBits (w : CommandWord) : (s.present w).srBits = s.srBits := rfl
@[simp] theorem State.present_srState (w : CommandWord) : (s.present w).srState = s.srState := rfl
@[simp] theorem State.present_brBuf (w : CommandWord) : (s.present w).brBuf = s.brBuf := rfl
@[simp] theorem State.present_brWr (w : CommandWord) : (s.present w).brWr = s.brWr := rfl
@[simp] theorem State.present_brRd (w : CommandWord) : (s.present w).brRd = s.brRd := rfl
@[simp] theorem State.present_brBit (w : CommandWord) : (s.present w).brBit = s.brBit := rfl
@[simp] theorem State.present_brSync (w : CommandWord) : (s.present w).brSync = s.brSync := rfl
@[simp] theorem State.present_brBss (w : CommandWord) : (s.present w).brBss = s.brBss := rfl
@[simp] theorem State.present_brState (w : CommandWord) : (s.present w).brState = s.brState := rfl
@[simp] theorem State.present_encAcc (w : CommandWord) : (s.present w).encAcc = s.encAcc := rfl
@[simp] theorem State.present_started (w : CommandWord) : (s.present w).started = s.started := rfl
@[simp] theorem State.present_cfg (w : CommandWord) : (s.present w).cfg = s.cfg := rfl
@[simp] theorem State.present_pending (w : CommandWord) : (s.present w).pending = s.pending ++ [w] := rfl
@[simp] theorem State.present_resetLine (w : CommandWord) : (s.present w).resetLine = s.resetLine := rfl
@[simp] theorem State.present_response (w : CommandWord) : (s.present w).response = s.response := rfl
@[simp] theorem State.present_powerOns (w : CommandWord) : (s.present w).powerOns = s.powerOns := rfl

@[simp] theorem State.assertReset_srBuf : (s.assertReset).srBuf = s.srBuf := rfl
@[simp] theorem State.assertReset_srWr : (s.assertReset).srWr = s.srWr := rfl
@[simp] theorem State.assertReset_srRd : (s.assertReset).srRd = s.srRd := rfl
@[simp] theorem State.assertReset_srBits : (s.assertReset).srBits = s.srBits := rfl
@[simp] theorem State.assertReset_srState : (s.assertReset).srState = s.srState := rfl
@[simp] theorem State.assertReset_brBuf : (s.assertReset).brBuf = s.brBuf := rfl
@[simp] theorem State.assertReset_brWr : (s.assertReset).brWr = s.brWr := rfl
@[simp] theorem State.assertReset_brRd : (s.assertReset).brRd = s.brRd := rfl
@[simp] theorem State.assertReset_brBit : (s.assertReset).brBit = s.brBit := rfl
@[simp] theorem State.assertReset_brSync : (s.assertReset).brSync = s.brSync := rfl
@[simp] theorem State.assertReset_brBss : (s.assertReset).brBss = s.brBss := rfl
@[simp] theorem State.assertReset_brState : (s.assertReset).brState = s.brState := rfl
@[simp] theorem State.assertReset_encAcc : (s.assertReset).encAcc = s.encAcc := rfl
@[simp] theorem State.assertReset_started : (s.assertReset).started = s.started := rfl
@[simp] theorem State.assertReset_cfg : (s.assertReset).cfg = s.cfg := rfl
@[simp] theorem State.assertReset_pending : (s.assertReset).pending = s.pending := rfl
@[simp] theorem State.assertReset_resetLine : (s.assertReset).resetLine = true := rfl
@[simp] theorem State.assertReset_response : (s.assertReset).response = s.response := rfl
@[simp] theorem State.assertReset_powerOns : (s.assertReset).powerOns = s.powerOns := rfl

@[simp] theorem State.withPending_srBuf (rest : List CommandWord) : (s.withPending rest).srBuf = s.srBuf := rfl
@[simp] theorem State.withPending_srWr (rest : List CommandWord) : (s.withPending rest).srWr = s.srWr := rfl
@[simp] theorem State.withPending_srRd (rest : List CommandWord) : (s.withPending rest).srRd = s.srRd := rfl
@[simp] theorem State.withPending_srBits (rest : List CommandWord) : (s.withPending rest).srBits = s.srBits := rfl
@[simp] theorem State.withPending_srState (rest : List CommandWord) : (s.withPending rest).srState = s.srState := rfl
@[simp] theorem State.withPending_brBuf (rest : List CommandWord) : (s.withPending rest).brBuf = s.brBuf := rfl
@[simp] theorem State.withPending_brWr (rest : List CommandWord) : (s.withPending rest).brWr = s.brWr := rfl
@[simp] theorem State.withPending_brRd (rest : List CommandWord) : (s.withPending rest).brRd = s.brRd := rfl
@[simp] theorem State.withPending_brBit (rest : List CommandWord) : (s.withPending rest).brBit = s.brBit := rfl
@[simp] theorem State.withPending_brSync (rest : List CommandWord) : (s.withPending rest).brSync = s.brSync := rfl
@[simp] theorem State.withPending_brBss (rest : List CommandWord) : (s.withPending rest).brBss = s.brBss := rfl
@[simp] theorem State.withPending_brState (rest : List CommandWord) : (s.withPending rest).brState = s.brState := rfl
@[simp] theorem State.withPending_encAcc (rest : List CommandWord) : (s.withPending rest).encAcc = s.encAcc := rfl
@[simp] theorem State.withPending_started (rest : List CommandWord) : (s.withPending rest).started = s.started := rfl
@[simp] theorem State.withPending_cfg (rest : List CommandWord) : (s.withPending rest).cfg = s.cfg := rfl
@[simp] theorem State.withPending_pending (rest : List CommandWord) : (s.withPending rest).pending = rest := rfl
@[simp] theorem State.withPending_resetLine (rest : List CommandWord) : (s.withPending rest).resetLine = s.resetLine := rfl
@[simp] theorem State.withPending_response (rest : List CommandWord) : (s.withPending rest).response = s.response := rfl
@[simp] theorem State.withPending_powerOns (rest : List CommandWord) : (s.withPending rest).powerOns = s.powerOns := rfl

@[simp] theorem State.putWord_fullB (w : Word) : (s.putWord w).fullB = s.fullB := rfl
@[simp] theorem State.putWord_emptyB (w : Word) : (s.putWord w).emptyB = s.emptyB := rfl
@[simp] theorem State.putWord_depthB (w : Word) : (s.putWord w).depthB = s.depthB := rfl

@[simp] theorem State.putByte_fullS (b : Byte) : (s.putByte b).fullS = s.fullS := rfl
@[simp] theorem State.putByte_emptyS (b : Byte) : (s.putByte b).emptyS = s.emptyS := rfl
@[simp] theorem State.putByte_depthS (b : Byte) : (s.putByte b).depthS = s.depthS := rfl

@[simp] theorem State.takeWord_fullB : (s.takeWord).fullB = s.fullB := rfl
@[simp] theorem State.takeWord_emptyB : (s.takeWord).emptyB = s.emptyB := rfl
@[simp] theorem State.takeWord_depthB : (s.takeWord).depthB = s.depthB := rfl

@[simp] theorem State.takeByte_fullS : (s.takeByte).fullS = s.fullS := rfl
@[simp] theorem State.takeByte_emptyS : (s.takeByte).emptyS = s.emptyS := rfl
@[simp] theorem State.takeByte_depthS : (s.takeByte).depthS = s.depthS := rfl

@[simp] theorem State.zeroFill_fullS : (s.zeroFill).fullS = s.fullS := rfl
@[simp] theorem State.zeroFill_emptyS : (s.zeroFill).emptyS = s.emptyS := rfl
@[simp] theorem State.zeroFill_depthS : (s.zeroFill).depthS = s.depthS := rfl
@[simp] theorem State.zeroFill_fullB : (s.zeroFill).fullB = s.fullB := rfl
@[simp] theorem State.zeroFill_emptyB : (s.zeroFill).emptyB = s.emptyB := rfl
@[simp] theorem State.zeroFill_depthB : (s.zeroFill).depthB = s.depthB := rfl


@[simp] theorem State.activate_fullS : (s.activate).fullS = s.fullS := rfl
@[simp] theorem State.activate_emptyS : (s.activate).emptyS = s.emptyS := rfl
@[simp] theorem State.activate_depthS : (s.activate).depthS = s.depthS := rfl
@[simp] theorem State.activate_fullB : (s.activate).fullB = s.fullB := rfl
@[simp] theorem State.activate_emptyB : (s.activate).emptyB = s.emptyB := rfl
@[simp] theorem State.activate_depthB : (s.activate).depthB = s.depthB := rfl

@[simp] theorem State.deactivate_fullS : (s.deactivate).fullS = s.fullS := rfl
@[simp] theorem State.deactivate_emptyS : (s.deactivate).emptyS = s.emptyS := rfl
@[simp] theorem State.deactivate_depthS : (s.deactivate).depthS = s.depthS := rfl
@[simp] theorem State.deactivate_fullB : (s.deactivate).fullB = s.fullB := rfl
@[simp] theorem State.deactivate_emptyB : (s.deactivate).emptyB = s.emptyB := rfl
@[simp] theorem State.deactivate_depthB : (s.deactivate).depthB = s.depthB := rfl

@[simp] theorem State.discardBytes_fullS : (s.discardBytes).fullS = s.fullS := rfl
@[simp] theorem State.discardBytes_emptyS : (s.discardBytes).emptyS = s.emptyS := rfl
@[simp] theorem State.discardBytes_depthS : (s.discardBytes).depthS = s.depthS := rfl

@[simp] theorem State.markSynchronized_fullS : (s.markSynchronized).fullS = s.fullS := rfl
@[simp] theorem State.markSynchronized_emptyS : (s.markSynchronized).emptyS = s.emptyS := rfl
@[simp] theorem State.markSynchronized_depthS : (s.markSynchronized).depthS = s.depthS := rfl
@[simp] theorem State.markSynchronized_fullB : (s.markSynchronized).fullB = s.fullB := rfl
@[simp] theorem State.markSynchronized_emptyB : (s.markSynchronized).emptyB = s.emptyB := rfl
@[simp] theorem State.markSynchronized_depthB : (s.markSynchronized).depthB = s.depthB := rfl

@[simp] theorem State.clearSync_fullS : (s.clearSync).fullS = s.fullS := rfl
@[simp] theorem State.clearSync_emptyS : (s.clearSync).emptyS = s.emptyS := rfl
@[simp] theorem State.clearSync_depthS : (s.clearSync).depthS = s.depthS := rfl
@[simp] theorem State.clearSync_fullB : (s.clearSync).fullB = s.fullB := rfl
@[simp] theorem State.clearSync_emptyB : (s.clearSync).emptyB = s.emptyB := rfl
@[simp] theorem State.clearSync_depthB : (s.clearSync).depthB = s.depthB := rfl

@[simp] theorem State.markStarted_fullS : (s.markStarted).fullS = s.fullS := rfl
@[simp] theorem State.markStarted_emptyS : (s.markStarted).emptyS = s.emptyS := rfl
@[simp] theorem State.markStarted_depthS : (s.markStarted).depthS = s.depthS := rfl
@[simp] theorem State.markStarted_fullB : (s.markStarted).fullB = s.fullB := rfl
@[simp] theorem State.markStarted_emptyB : (s.markStarted).emptyB = s.emptyB := rfl
@[simp] theorem State.markStarted_depthB : (s.markStarted).depthB = s.depthB := rfl

@[simp] theorem State.withCount_fullS (v : BitVec 16) : (s.withCount v).fullS = s.fullS := rfl
@[simp] theorem State.withCount_emptyS (v : BitVec 16) : (s.withCount v).emptyS = s.emptyS := rfl
@[simp] theorem State.withCount_depthS (v : BitVec 16) : (s.withCount v).depthS = s.depthS := rfl
@[simp] theorem State.withCount_fullB (v : BitVec 16) : (s.withCount v).fullB = s.fullB := rfl
@[simp] theorem State.withCount_emptyB (v : BitVec 16) : (s.withCount v).emptyB = s.emptyB := rfl
@[simp] theorem State.withCount_depthB (v : BitVec 16) : (s.withCount v).depthB = s.depthB := rfl

@[simp] theorem State.withBit_fullS (v : BitVec 3) : (s.withBit v).fullS = s.fullS := rfl
@[simp] theorem State.withBit_emptyS (v : BitVec 3) : (s.withBit v).emptyS = s.emptyS := rfl
@[simp] theorem State.withBit_depthS (v : BitVec 3) : (s.withBit v).depthS = s.depthS := rfl
@[simp] theorem State.withBit_fullB (v : BitVec 3) : (s.withBit v).fullB = s.fullB := rfl
@[simp] theorem State.withBit_emptyB (v : BitVec 3) : (s.withBit v).emptyB = s.emptyB := rfl
@[simp] theorem State.withBit_depthB (v : BitVec 3) : (s.withBit v).depthB = s.depthB := rfl

@[simp] theorem State.withAcc_fullS (v : Byte) : (s.withAcc v).fullS = s.fullS := rfl
@[simp] theorem State.withAcc_emptyS (v : Byte) : (s.withAcc v).emptyS = s.emptyS := rfl
@[simp] theorem State.withAcc_depthS (v : Byte) : (s.withAcc v).depthS = s.depthS := rfl
@[simp] theorem State.withAcc_fullB (v : Byte) : (s.withAcc v).fullB = s.fullB := rfl
@[simp] theorem State.withAcc_emptyB (v : Byte) : (s.withAcc v).emptyB = s.emptyB := rfl
@[simp] theorem State.withAcc_depthB (v : Byte) : (s.withAcc v).depthB = s.depthB := rfl

@[simp] theorem State.withBits_fullS (v : BitVec 5) : (s.withBits v).fullS = s.fullS := rfl
@[simp] theorem State.withBits_emptyS (v : BitVec 5) : (s.withBits v).emptyS = s.emptyS := rfl
@[simp] theorem State.withBits_depthS (v : BitVec 5) : (s.withBits v).depthS = s.depthS := rfl
@[simp] theorem State.withBits_fullB (v : BitVec 5) : (s.withBits v).fullB = s.fullB := rfl
@[simp] theorem State.withBits_emptyB (v : BitVec 5) : (s.withBits v).emptyB = s.emptyB := rfl
@[simp] theorem State.withBits_depthB (v : BitVec 5) : (s.withBits v).depthB = s.depthB := rfl

@[simp] theorem State.consumeWord_fullB (slot : Cursor) : (s.consumeWord slot).fullB = s.fullB := rfl
@[simp] theorem State.consumeWord_emptyB (slot : Cursor) : (s.consumeWord slot).emptyB = s.emptyB := rfl
@[simp] theorem State.consumeWord_depthB (slot : Cursor) : (s.consumeWord slot).depthB = s.depthB := rfl

@[simp] theorem State.unanswered_fullS : (s.unanswered).fullS = s.fullS := rfl
@[simp] theorem State.unanswered_emptyS : (s.unanswered).emptyS = s.emptyS := rfl
@[simp] theorem State.unanswered_depthS : (s.unanswered).depthS = s.depthS := rfl
@[simp] theorem State.unanswered_fullB : (s.unanswered).fullB = s.fullB := rfl
@[simp] theorem State.unanswered_emptyB : (s.unanswered).emptyB = s.emptyB := rfl
@[simp] theorem State.unanswered_depthB : (s.unanswered).depthB = s.depthB := rfl

@[simp] theorem State.respond_fullS (r : ResponseWord) : (s.respond r).fullS = s.fullS := rfl
@[simp] theorem State.respond_emptyS (r : ResponseWord) : (s.respond r).emptyS = s.emptyS := rfl
@[simp] theorem State.respond_depthS (r : ResponseWord) : (s.respond r).depthS = s.depthS := rfl
@[simp] theorem State.respond_fullB (r : ResponseWord) : (s.respond r).fullB = s.fullB := rfl
@[simp] theorem State.respond_emptyB (r : ResponseWord) : (s.respond r).emptyB = s.emptyB := rfl
@[simp] theorem State.respond_depthB (r : ResponseWord) : (s.respond r).depthB = s.depthB := rfl

@[simp] theorem State.present_fullS (w : CommandWord) : (s.present w).fullS = s.fullS := rfl
@[simp] theorem State.present_emptyS (w : CommandWord) : (s.present w).emptyS = s.emptyS := rfl
@[simp] theorem State.present_depthS (w : CommandWord) : (s.present w).depthS = s.depthS := rfl
@[simp] theorem State.present_fullB (w : CommandWord) : (s.present w).fullB = s.fullB := rfl
@[simp] theorem State.present_emptyB (w : CommandWord) : (s.present w).emptyB = s.emptyB := rfl
@[simp] theorem State.present_depthB (w : CommandWord) : (s.present w).depthB = s.depthB := rfl

@[simp] theorem State.assertReset_fullS : (s.assertReset).fullS = s.fullS := rfl
@[simp] theorem State.assertReset_emptyS : (s.assertReset).emptyS = s.emptyS := rfl
@[simp] theorem State.assertReset_depthS : (s.assertReset).depthS = s.depthS := rfl
@[simp] theorem State.assertReset_fullB : (s.assertReset).fullB = s.fullB := rfl
@[simp] theorem State.assertReset_emptyB : (s.assertReset).emptyB = s.emptyB := rfl
@[simp] theorem State.assertReset_depthB : (s.assertReset).depthB = s.depthB := rfl

@[simp] theorem State.withPending_fullS (rest : List CommandWord) : (s.withPending rest).fullS = s.fullS := rfl
@[simp] theorem State.withPending_emptyS (rest : List CommandWord) : (s.withPending rest).emptyS = s.emptyS := rfl
@[simp] theorem State.withPending_depthS (rest : List CommandWord) : (s.withPending rest).depthS = s.depthS := rfl
@[simp] theorem State.withPending_fullB (rest : List CommandWord) : (s.withPending rest).fullB = s.fullB := rfl
@[simp] theorem State.withPending_emptyB (rest : List CommandWord) : (s.withPending rest).emptyB = s.emptyB := rfl
@[simp] theorem State.withPending_depthB (rest : List CommandWord) : (s.withPending rest).depthB = s.depthB := rfl

@[simp] theorem State.powerOn_srBuf (c : Config) (era : Nat) : (State.powerOn c era).srBuf = ⟨[], .powerOn era c.wordBits⟩ := rfl
@[simp] theorem State.powerOn_srWr (c : Config) (era : Nat) : (State.powerOn c era).srWr = 0 := rfl
@[simp] theorem State.powerOn_srRd (c : Config) (era : Nat) : (State.powerOn c era).srRd = 0 := rfl
@[simp] theorem State.powerOn_srBits (c : Config) (era : Nat) : (State.powerOn c era).srBits = 0 := rfl
@[simp] theorem State.powerOn_srState (c : Config) (era : Nat) : (State.powerOn c era).srState = .inactive := rfl
@[simp] theorem State.powerOn_brBuf (c : Config) (era : Nat) : (State.powerOn c era).brBuf = ⟨[], .powerOn era 8⟩ := rfl
@[simp] theorem State.powerOn_brWr (c : Config) (era : Nat) : (State.powerOn c era).brWr = 0 := rfl
@[simp] theorem State.powerOn_brRd (c : Config) (era : Nat) : (State.powerOn c era).brRd = 0 := rfl
@[simp] theorem State.powerOn_brBit (c : Config) (era : Nat) : (State.powerOn c era).brBit = 0 := rfl
@[simp] theorem State.powerOn_brSync (c : Config) (era : Nat) : (State.powerOn c era).brSync = false := rfl
@[simp] theorem State.powerOn_brBss (c : Config) (era : Nat) : (State.powerOn c era).brBss = 0 := rfl
@[simp] theorem State.powerOn_brState (c : Config) (era : Nat) : (State.powerOn c era).brState = .inactive := rfl
@[simp] theorem State.powerOn_encAcc (c : Config) (era : Nat) : (State.powerOn c era).encAcc = 0 := rfl
@[simp] theorem State.powerOn_started (c : Config) (era : Nat) : (State.powerOn c era).started = false := rfl
@[simp] theorem State.powerOn_cfg (c : Config) (era : Nat) : (State.powerOn c era).cfg = c := rfl
@[simp] theorem State.powerOn_pending (c : Config) (era : Nat) : (State.powerOn c era).pending = [] := rfl
@[simp] theorem State.powerOn_resetLine (c : Config) (era : Nat) : (State.powerOn c era).resetLine = false := rfl
@[simp] theorem State.powerOn_response (c : Config) (era : Nat) : (State.powerOn c era).response = none := rfl
@[simp] theorem State.powerOn_powerOns (c : Config) (era : Nat) : (State.powerOn c era).powerOns = era := rfl

end Sys2Proof.Machine
end

