-- ==== Sys2Proof/Laws/Decoder.lean ====
section
/-! SUPPORT. What each helper of the Decoder can do, and what it leaves alone. -/

namespace Sys2Proof.Machine

variable {s : State}

/-- The elements extraction does not write (42_decoder.md R180, R184). -/
structure ExtractKeeps (s t : State) : Prop where
  srBuf : t.srBuf = s.srBuf
  srWr : t.srWr = s.srWr
  srRd : t.srRd = s.srRd
  srBits : t.srBits = s.srBits
  srState : t.srState = s.srState
  brBuf : t.brBuf = s.brBuf
  brWr : t.brWr = s.brWr
  brSync : t.brSync = s.brSync
  brState : t.brState = s.brState
  encAcc : t.encAcc = s.encAcc
  started : t.started = s.started
  cfg : t.cfg = s.cfg
  pending : t.pending = s.pending
  resetLine : t.resetLine = s.resetLine
  response : t.response = s.response
  powerOns : t.powerOns = s.powerOns

theorem ExtractKeeps.refl (s : State) : ExtractKeeps s s :=
  ⟨rfl, rfl, rfl, rfl, rfl, rfl, rfl, rfl, rfl, rfl, rfl, rfl, rfl, rfl, rfl, rfl⟩

theorem ExtractKeeps.trans {s t u : State} (h : ExtractKeeps s t) (k : ExtractKeeps t u) : ExtractKeeps s u :=
  ⟨k.srBuf.trans h.srBuf, k.srWr.trans h.srWr, k.srRd.trans h.srRd, k.srBits.trans h.srBits, k.srState.trans h.srState,
   k.brBuf.trans h.brBuf, k.brWr.trans h.brWr, k.brSync.trans h.brSync, k.brState.trans h.brState,
   k.encAcc.trans h.encAcc, k.started.trans h.started, k.cfg.trans h.cfg, k.pending.trans h.pending,
   k.resetLine.trans h.resetLine, k.response.trans h.response, k.powerOns.trans h.powerOns⟩

/-- One bit read: the bit appended, and the read position moved, past the slot with its eighth bit (R184). -/
theorem extractBit_cases (w : Word) (s : State) :
    let b := (s.brBuf.read s.nextReadB.toNat).getLsbD (7 - s.brBit.toNat)
    let w' := (w <<< 1) ||| (BitVec.ofBool b).setWidth 24
    (s.brBit = 7 ∧ extractBit w s =
      (w', (s.takeByte.withBit 0).withCount (BitVec.ofNat 16 (min (s.brBss.toNat + 1) 65535)))) ∨
    (s.brBit ≠ 7 ∧ extractBit w s = (w', s.withBit (s.brBit + 1))) := by
  unfold extractBit
  by_cases h : s.brBit = 7
  · exact .inl ⟨h, if_pos h⟩
  · exact .inr ⟨h, if_neg h⟩

theorem extractBit_keeps (w : Word) (s : State) : ExtractKeeps s (extractBit w s).2 := by
  rcases extractBit_cases w s with ⟨-, h⟩ | ⟨-, h⟩ <;> rw [h] <;>
    exact ⟨rfl, rfl, rfl, rfl, rfl, rfl, rfl, rfl, rfl, rfl, rfl, rfl, rfl, rfl, rfl, rfl⟩

theorem extractBits_keeps (n : Nat) (w : Word) (s : State) : ExtractKeeps s (extractBits n w s).2 := by
  induction n generalizing w s with
  | zero => exact .refl s
  | succ n ih => exact (extractBit_keeps w s).trans (ih _ _)

end Sys2Proof.Machine
end

