-- ==== Sys2Proof/Laws/Encoder.lean ====
section
/-! SUPPORT. What each helper of the Encoder can do, and what it leaves alone. -/

namespace Sys2Proof.Machine

variable {s : State}

/-- The elements no part of an Encoder UPDATE writes (41_encoder.md R151). -/
structure EncoderKeeps (s t : State) : Prop where
  srBuf : t.srBuf = s.srBuf
  srWr : t.srWr = s.srWr
  srState : t.srState = s.srState
  brRd : t.brRd = s.brRd
  brSync : t.brSync = s.brSync
  brState : t.brState = s.brState
  started : t.started = s.started
  cfg : t.cfg = s.cfg
  pending : t.pending = s.pending
  resetLine : t.resetLine = s.resetLine
  response : t.response = s.response
  powerOns : t.powerOns = s.powerOns

theorem EncoderKeeps.refl (s : State) : EncoderKeeps s s :=
  ⟨rfl, rfl, rfl, rfl, rfl, rfl, rfl, rfl, rfl, rfl, rfl, rfl⟩

theorem EncoderKeeps.trans {s t u : State} (h : EncoderKeeps s t) (k : EncoderKeeps t u) : EncoderKeeps s u :=
  ⟨k.srBuf.trans h.srBuf, k.srWr.trans h.srWr, k.srState.trans h.srState, k.brRd.trans h.brRd, k.brSync.trans h.brSync,
   k.brState.trans h.brState, k.started.trans h.started, k.cfg.trans h.cfg, k.pending.trans h.pending,
   k.resetLine.trans h.resetLine, k.response.trans h.response, k.powerOns.trans h.powerOns⟩

theorem EncoderKeeps.count (s : State) (v : BitVec 16) : EncoderKeeps s (s.withCount v) :=
  ⟨rfl, rfl, rfl, rfl, rfl, rfl, rfl, rfl, rfl, rfl, rfl, rfl⟩

theorem EncoderKeeps.held (s : State) (v : Byte) : EncoderKeeps s (s.withAcc v) :=
  ⟨rfl, rfl, rfl, rfl, rfl, rfl, rfl, rfl, rfl, rfl, rfl, rfl⟩

theorem EncoderKeeps.position (s : State) (v : BitVec 3) : EncoderKeeps s (s.withBit v) :=
  ⟨rfl, rfl, rfl, rfl, rfl, rfl, rfl, rfl, rfl, rfl, rfl, rfl⟩

/-- A push into the BitRing: put, or dropped where the ring is full (R156, R157). -/
theorem pushOrDrop_cases (d : Byte) (s : State) :
    (s.fullB = true ∧ pushOrDrop d s = (s, false)) ∨ (s.fullB = false ∧ pushOrDrop d s = (s.putByte d, true)) := by
  unfold pushOrDrop; cases s.fullB <;> simp

/-- The count, and the marker where one is due (R156). -/
theorem countByte_cases (s : State) :
    (s.cfg.syncPeriod ≤ s.brBss.toNat + 2 ∧ countByte s = pushOrDrop s.cfg.syncSignal (s.withCount 0)) ∨
    (s.brBss.toNat + 2 < s.cfg.syncPeriod ∧
      countByte s = (s.withCount (BitVec.ofNat 16 (s.brBss.toNat + 1)), true)) := by
  unfold countByte
  by_cases h : s.cfg.syncPeriod ≤ s.brBss.toNat + 2
  · exact .inl ⟨h, by simp [h]⟩
  · exact .inr ⟨by omega, by simp [h]⟩

/-- One bit placed, and the Word consumed with its last (R152 to R154). -/
theorem placeBit_cases (slot : Cursor) (w : Word) (s : State) :
    let acc := setBit s.encAcc (7 - s.brBit.toNat) (w.getLsbD (s.cfg.wordBits - 1 - s.srBits.toNat))
    (s.srBits.toNat + 1 = s.cfg.wordBits ∧
      placeBit slot w s = ((s.withAcc acc).consumeWord slot, true)) ∨
    (s.srBits.toNat + 1 ≠ s.cfg.wordBits ∧
      placeBit slot w s = ((s.withAcc acc).withBits (BitVec.ofNat 5 (s.srBits.toNat + 1)), false)) := by
  unfold placeBit
  by_cases h : s.srBits.toNat + 1 = s.cfg.wordBits
  · exact .inl ⟨h, by simp [h]⟩
  · exact .inr ⟨h, by simp [h]⟩

/-- One pass: the byte completed with its eighth bit, or one more bit held (R151). -/
theorem packBit_cases (slot : Cursor) (w : Word) (k : Nat) (s : State) :
    let p := placeBit slot w s
    let q := completeByte p.2 (k + 1) (if p.2 then 0 else s.cfg.wordBits - p.1.srBits.toNat) (p.1.withBit 0)
    (s.brBit.toNat = 7 ∧ packBit slot w k s = ⟨q.1, 0, p.2, q.2⟩) ∨
    (s.brBit.toNat < 7 ∧
      packBit slot w k s = ⟨p.1.withBit (BitVec.ofNat 3 (s.brBit.toNat + 1)), k + 1, p.2, true⟩) := by
  have hb : s.brBit.toNat < 8 := s.brBit.isLt
  unfold packBit
  by_cases h : s.brBit.toNat = 7
  · exact .inl ⟨h, by simp [h]⟩
  · exact .inr ⟨by omega, by simp [h]⟩

theorem pushOrDrop_keeps (d : Byte) (s : State) : EncoderKeeps s (pushOrDrop d s).1 := by
  rcases pushOrDrop_cases d s with ⟨-, h⟩ | ⟨-, h⟩ <;> rw [h]
  · exact .refl s
  · exact ⟨rfl, rfl, rfl, rfl, rfl, rfl, rfl, rfl, rfl, rfl, rfl, rfl⟩

theorem countByte_keeps (s : State) : EncoderKeeps s (countByte s).1 := by
  rcases countByte_cases s with ⟨-, h⟩ | ⟨-, h⟩ <;> rw [h]
  · exact (EncoderKeeps.count s 0).trans (pushOrDrop_keeps _ _)
  · exact EncoderKeeps.count s _

theorem pushData_keeps (d : Byte) (s : State) : EncoderKeeps s (pushData d s).1 :=
  (pushOrDrop_keeps d s).trans (countByte_keeps _)

theorem completeByte_keeps (done : Bool) (k r : Nat) (s : State) : EncoderKeeps s (completeByte done k r s).1 :=
  (EncoderKeeps.held s 0).trans (pushData_keeps _ _)

theorem placeBit_keeps (slot : Cursor) (w : Word) (s : State) : EncoderKeeps s (placeBit slot w s).1 := by
  rcases placeBit_cases slot w s with ⟨-, h⟩ | ⟨-, h⟩ <;> rw [h] <;>
    exact ⟨rfl, rfl, rfl, rfl, rfl, rfl, rfl, rfl, rfl, rfl, rfl, rfl⟩

theorem packBit_keeps (slot : Cursor) (w : Word) (k : Nat) (s : State) : EncoderKeeps s (packBit slot w k s).state := by
  rcases packBit_cases slot w k s with ⟨-, h⟩ | ⟨-, h⟩ <;> rw [h]
  · exact ((placeBit_keeps slot w s).trans (EncoderKeeps.position _ 0)).trans (completeByte_keeps _ _ _ _)
  · exact (placeBit_keeps slot w s).trans (EncoderKeeps.position _ _)

theorem encodeWord_keeps (slot : Cursor) (w : Word) (fuel k : Nat) (s : State) :
    EncoderKeeps s (encodeWord slot w fuel k s).1 := by
  induction fuel generalizing k s with
  | zero => exact .refl s
  | succ n ih =>
    unfold encodeWord
    simp only
    split
    · split
      · exact packBit_keeps slot w k s
      · exact (packBit_keeps slot w k s).trans (ih _ _)
    · exact packBit_keeps slot w k s

theorem encodeAll_keeps (fuel : Nat) (s : State) : EncoderKeeps s (encodeAll fuel s).1 := by
  induction fuel generalizing s with
  | zero => exact .refl s
  | succ n ih =>
    unfold encodeAll
    simp only
    split
    · exact .refl s
    · split
      · exact (encodeWord_keeps _ _ _ _ _).trans (ih _)
      · exact encodeWord_keeps _ _ _ _ _

end Sys2Proof.Machine
end

