-- ==== Sys2Proof/Laws/Memory.lean ====
section
/-! SUPPORT. Reading and writing slots: a read after a write, the slots a write leaves alone, and the canonical form
that every memory operation keeps. -/

namespace Sys2Proof.Machine

variable {w : Nat}

@[simp] theorem Memory.unlisted_cells (m : Memory w) (cells : List (Nat × BitVec w)) (slot : Nat) :
    Memory.unlisted ⟨cells, m.fill⟩ slot = m.unlisted slot := rfl

@[simp] theorem Memory.write_fill (m : Memory w) (slot : Nat) (v : BitVec w) : (m.write slot v).fill = m.fill := by
  unfold Memory.write; split <;> rfl

@[simp] theorem Memory.unlisted_write (m : Memory w) (slot a : Nat) (v : BitVec w) :
    (m.write slot v).unlisted a = m.unlisted a := by
  simp [Memory.unlisted]

theorem Memory.lookup_remove_same (cells : List (Nat × BitVec w)) (slot : Nat) :
    Memory.lookup (Memory.remove cells slot) slot = none := by
  induction cells with
  | nil => rfl
  | cons c cs ih =>
    by_cases h : c.1 = slot
    · simpa [Memory.remove, h] using ih
    · simpa [Memory.remove, h, Memory.lookup] using ih

theorem Memory.lookup_remove_other (cells : List (Nat × BitVec w)) {slot a : Nat} (ha : a ≠ slot) :
    Memory.lookup (Memory.remove cells slot) a = Memory.lookup cells a := by
  induction cells with
  | nil => rfl
  | cons c cs ih =>
    by_cases h : c.1 = slot
    · have hne : c.1 ≠ a := fun e => ha (e.symm.trans h)
      simpa [Memory.remove, h, Memory.lookup, hne, Ne.symm ha] using ih
    · by_cases hc : c.1 = a
      · have hn : ¬a = slot := ha
        simp [Memory.remove, Memory.lookup, hc, hn]
      · simpa [Memory.remove, h, Memory.lookup, hc] using ih

theorem Memory.lookup_place_same (cells : List (Nat × BitVec w)) (slot : Nat) (v : BitVec w)
    (h : Memory.lookup cells slot = none) : Memory.lookup (Memory.place slot v cells) slot = some v := by
  induction cells with
  | nil => simp [Memory.place, Memory.lookup]
  | cons c cs ih =>
    have hc : c.1 ≠ slot := fun e => by simp [Memory.lookup, e] at h
    have ht : Memory.lookup cs slot = none := by simpa [Memory.lookup, hc] using h
    by_cases hl : slot < c.1
    · simp [Memory.place, hl, Memory.lookup]
    · simpa [Memory.place, hl, Memory.lookup, hc] using ih ht

theorem Memory.lookup_place_other (cells : List (Nat × BitVec w)) {slot a : Nat} (v : BitVec w) (ha : a ≠ slot) :
    Memory.lookup (Memory.place slot v cells) a = Memory.lookup cells a := by
  induction cells with
  | nil => simp [Memory.place, Memory.lookup, Ne.symm ha]
  | cons c cs ih =>
    by_cases hl : slot < c.1
    · simp [Memory.place, hl, Memory.lookup, Ne.symm ha]
    · by_cases hc : c.1 = a
      · subst hc
        simp [Memory.place, hl, Memory.lookup]
      · simpa [Memory.place, hl, Memory.lookup, hc] using ih

/-- A slot reads as what was last written to it. -/
@[simp] theorem Memory.read_write_same (m : Memory w) (slot : Nat) (v : BitVec w) : (m.write slot v).read slot = v := by
  unfold Memory.write
  split
  · rename_i h; simp [Memory.read, Memory.lookup_remove_same, ← h]
  · simp [Memory.read, Memory.lookup_place_same _ _ _ (Memory.lookup_remove_same m.cells slot)]

/-- A write leaves every other slot alone. -/
theorem Memory.read_write_other (m : Memory w) {slot a : Nat} (v : BitVec w) (ha : a ≠ slot) :
    (m.write slot v).read a = m.read a := by
  unfold Memory.write
  split
  · simp [Memory.read, Memory.lookup_remove_other _ ha]
  · simp [Memory.read, Memory.lookup_place_other _ _ ha, Memory.lookup_remove_other _ ha]

@[simp] theorem Memory.read_zeroed (slot : Nat) : (Memory.zeroed w).read slot = 0 := rfl

@[simp] theorem Memory.wf_nil (f : Fill) : Memory.wf (⟨[], f⟩ : Memory w) = true := rfl

@[simp] theorem Memory.wf_zeroed : (Memory.zeroed w).wf = true := rfl

/-- Every entry of the list lies above `slot`. -/
def Memory.above (slot : Nat) (cells : List (Nat × BitVec w)) : Prop := ∀ c ∈ cells, slot < c.1

theorem Memory.rising_cons (c : Nat × BitVec w) (cs : List (Nat × BitVec w)) :
    Memory.rising (c :: cs) = true ↔ Memory.above c.1 cs ∧ Memory.rising cs = true := by
  induction cs generalizing c with
  | nil => simp [Memory.rising, Memory.above]
  | cons d ds ih =>
    constructor
    · intro h
      have h' : c.1 < d.1 ∧ Memory.rising (d :: ds) = true := by simpa [Memory.rising] using h
      refine ⟨?_, h'.2⟩
      intro e he
      rcases List.mem_cons.1 he with rfl | he
      · exact h'.1
      · exact h'.1.trans (((ih d).1 h'.2).1 e he)
    · rintro ⟨ha, hr⟩
      simp [Memory.rising, ha d (by simp), hr]

theorem Memory.mem_remove {cells : List (Nat × BitVec w)} {slot : Nat} {c : Nat × BitVec w} :
    c ∈ Memory.remove cells slot ↔ c ∈ cells ∧ c.1 ≠ slot := by
  simp [Memory.remove]

theorem Memory.mem_place {cells : List (Nat × BitVec w)} {slot : Nat} {v : BitVec w} {c : Nat × BitVec w} :
    c ∈ Memory.place slot v cells ↔ c = (slot, v) ∨ c ∈ cells := by
  induction cells with
  | nil => simp [Memory.place]
  | cons d ds ih =>
    by_cases hl : slot < d.1
    · simp [Memory.place, hl]
    · simp [Memory.place, hl, ih]; tauto

theorem Memory.rising_remove {cells : List (Nat × BitVec w)} (slot : Nat) (h : Memory.rising cells = true) :
    Memory.rising (Memory.remove cells slot) = true := by
  induction cells with
  | nil => rfl
  | cons c cs ih =>
    obtain ⟨ha, hr⟩ := (Memory.rising_cons c cs).1 h
    have hrest := ih hr
    by_cases hc : c.1 = slot
    · simpa [Memory.remove, hc] using hrest
    · have he : Memory.remove (c :: cs) slot = c :: Memory.remove cs slot := by simp [Memory.remove, hc]
      rw [he, Memory.rising_cons]
      exact ⟨fun d hd => ha d (Memory.mem_remove.1 hd).1, hrest⟩

theorem Memory.rising_place {cells : List (Nat × BitVec w)} (slot : Nat) (v : BitVec w)
    (h : Memory.rising cells = true) (hn : ∀ c ∈ cells, c.1 ≠ slot) :
    Memory.rising (Memory.place slot v cells) = true := by
  induction cells with
  | nil => rfl
  | cons c cs ih =>
    obtain ⟨ha, hr⟩ := (Memory.rising_cons c cs).1 h
    by_cases hl : slot < c.1
    · simp only [Memory.place, hl, if_true]
      rw [Memory.rising_cons]
      refine ⟨?_, h⟩
      intro d hd
      rcases List.mem_cons.1 hd with rfl | hd
      · exact hl
      · exact hl.trans (ha d hd)
    · have hc : c.1 < slot := by have := hn c (by simp); omega
      simp only [Memory.place, hl, if_false]
      rw [Memory.rising_cons]
      refine ⟨?_, ih hr fun d hd => hn d (by simp [hd])⟩
      intro d hd
      rcases Memory.mem_place.1 hd with rfl | hd
      · exact hc
      · exact ha d hd

/-- Every write keeps the canonical form. -/
theorem Memory.wf_write {m : Memory w} (slot : Nat) (v : BitVec w) (h : m.wf = true) : (m.write slot v).wf = true := by
  obtain ⟨hr, ha⟩ : Memory.rising m.cells = true ∧ ∀ c ∈ m.cells, c.2 ≠ m.unlisted c.1 := by
    simpa [Memory.wf] using h
  unfold Memory.write
  split
  · simp only [Memory.wf, Bool.and_eq_true, List.all_eq_true, decide_eq_true_eq]
    exact ⟨Memory.rising_remove slot hr, fun c hc => ha c (Memory.mem_remove.1 hc).1⟩
  · rename_i hv
    simp only [Memory.wf, Bool.and_eq_true, List.all_eq_true, decide_eq_true_eq]
    refine ⟨Memory.rising_place slot v (Memory.rising_remove slot hr) fun c hc => (Memory.mem_remove.1 hc).2, ?_⟩
    intro c hc
    rcases Memory.mem_place.1 hc with rfl | hc
    · exact hv
    · exact ha c (Memory.mem_remove.1 hc).1

/-- What a write lists is what was listed, and the value written. -/
theorem Memory.mem_write {m : Memory w} {slot : Nat} {v : BitVec w} {c : Nat × BitVec w}
    (h : c ∈ (m.write slot v).cells) : c = (slot, v) ∨ c ∈ m.cells := by
  unfold Memory.write at h
  split at h
  · exact .inr (Memory.mem_remove.1 h).1
  · exact (Memory.mem_place.1 h).imp id fun h => (Memory.mem_remove.1 h).1

end Sys2Proof.Machine
end

