-- ==== Sys2Proof/Laws/Outcomes.lean ====
section
/-! SUPPORT. Once for each shared operation, everything it can do when it answers a next state. -/

namespace Sys2Proof.Machine

variable {s t : State}

@[simp] theorem raise_next (st : Status) : raise st s = .next t ↔ t = s.respond (responseWord st false 0) := by
  simp [raise, eq_comm]

@[simp] theorem raiseOk_next (data : BitVec 24) (ready : Bool) :
    raiseOk data ready s = .next t ↔ t = s.respond (responseWord .ok ready data) := by
  simp [raiseOk, eq_comm]

/-- Every command and every step needs a well-formed configuration (R8). -/
@[simp] theorem elaborated_next {r : Result} : elaborated s r = .next t ↔ s.cfg.WellFormed ∧ r = .next t := by
  unfold elaborated
  by_cases h : s.cfg.WellFormed
  · rw [if_pos h]; exact ⟨fun hr => ⟨h, hr⟩, fun hr => hr.2⟩
  · rw [if_neg h]; exact ⟨nofun, fun hr => absurd hr.1 h⟩

theorem elaborated_of_wellFormed {r : Result} (h : s.cfg.WellFormed) : elaborated s r = r := if_pos h

@[simp] theorem illegalCommand_next :
    illegalCommand s = .next t ↔ s.cfg.WellFormed ∧ t = s.respond (responseWord .illegal false 0) := by
  simp [illegalCommand]

/-- The operand's range check (R107). -/
theorem checkedOperand_next {legal : Bool} {r : Result} :
    checkedOperand legal s r = .next t ↔
      (legal = true ∧ r = .next t) ∨ (legal = false ∧ t = s.respond (responseWord .illegal false 0)) := by
  unfold checkedOperand; cases legal <;> simp

/-- The mode check and the session check of a port (R210). -/
theorem port_next {mode : Mode} {ring : RingState} {r : Result} :
    port mode ring s r = .next t ↔
      (s.cfg.mode ≠ mode ∧ t = s.respond (responseWord .wrongMode false 0)) ∨
      (s.cfg.mode = mode ∧ ring ≠ .active ∧ t = s.respond (responseWord .notActive false 0)) ∨
      (s.cfg.mode = mode ∧ ring = .active ∧ r = .next t) := by
  unfold port
  by_cases hm : s.cfg.mode = mode
  · by_cases hr : ring = .active <;> simp [hm, hr]
  · simp [hm]

/-- The start marker: put in Emitter mode unless the ring is full, none in Receiver mode (R132, R138, R159). -/
theorem startMarker_next :
    startMarker s = .next t ↔
      (s.cfg.mode = .emitter ∧ s.fullB = false ∧
        t = ((s.withCount 0).putByte s.cfg.syncSignal).respond (responseWord .ok false 0)) ∨
      (s.cfg.mode = .emitter ∧ s.fullB = true ∧
        t = (s.withCount 0).respond (responseWord .overrun false 0)) ∨
      (s.cfg.mode = .receiver ∧ t = s.respond (responseWord .ok false 0)) := by
  unfold startMarker emitMarker
  cases hm : s.cfg.mode <;> cases hb : s.fullB <;> simp [hb]

/-- Phase 1 of the Decoder (R181). -/
theorem synchronize_cases :
    (s.markerSeen = true ∧ synchronize s = s.discardBytes.markSynchronized) ∨
    (s.markerSeen = false ∧ synchronize s = s) := by
  unfold synchronize; cases s.markerSeen <;> simp

/-- The push of a decoded Word (R185). -/
theorem pushDecoded_next {w : Word} :
    pushDecoded w s = .next t ↔
      (s.fullS = true ∧ t = s.respond (responseWord .overrun false 0)) ∨
      (s.fullS = false ∧ t = (s.putWord w).respond (responseWord .ok true 0)) := by
  unfold pushDecoded; cases s.fullS <;> simp

/-- Phase 2 of the Decoder (R183 to R185). -/
theorem extractWord_next :
    extractWord s = .next t ↔
      (s.avail < s.cfg.wordBits ∧ t = s.respond (responseWord .noNewData false 0)) ∨
      (s.cfg.wordBits ≤ s.avail ∧
        pushDecoded (extractBits s.cfg.wordBits 0 s).1 (extractBits s.cfg.wordBits 0 s).2 = .next t) := by
  unfold extractWord
  by_cases h : s.avail < s.cfg.wordBits
  · simp [h, Nat.not_le.2 h]
  · simp [h, Nat.not_lt.1 h]

/-- The Decoder's UPDATE (R180, R182). -/
theorem decoderUpdate_next :
    decoderUpdate s = .next t ↔
      ((synchronize s).brSync = true ∧ extractWord (synchronize s) = .next t) ∨
      ((synchronize s).brSync = false ∧
        t = (synchronize s).discardBytes.respond (responseWord .syncWaiting false 0)) := by
  unfold decoderUpdate; cases h : (synchronize s).brSync <;> simp [h]

/-- The Encoder's UPDATE (R151, R157, R160). -/
theorem encoderUpdate_next :
    encoderUpdate s = .next t ↔
      (s.emptyS = true ∧ t = s.respond (responseWord .noNewData false 0)) ∨
      (s.emptyS = false ∧ (encodeAll s.depthS s).2 = true ∧
        t = (encodeAll s.depthS s).1.respond (responseWord .ok true 0)) ∨
      (s.emptyS = false ∧ (encodeAll s.depthS s).2 = false ∧
        t = (encodeAll s.depthS s).1.respond (responseWord .overrun false 0)) := by
  unfold encoderUpdate
  cases s.emptyS <;> cases h : (encodeAll s.depthS s).2 <;> simp [h]

/-- What the block takes next (R90, R280). -/
theorem take_cases :
    (s.resetLine = true ∧ take s = .reset) ∨
    (s.resetLine = false ∧ s.pending = [] ∧ take s = .nothing) ∨
    (s.resetLine = false ∧ ∃ w rest i, s.pending = w :: rest ∧ decode w = .command i ∧ take s = .command i rest) ∨
    (s.resetLine = false ∧ ∃ w rest e, s.pending = w :: rest ∧ decode w = .illegal e ∧ take s = .illegal rest) := by
  unfold take
  cases hr : s.resetLine
  · cases hp : s.pending with
    | nil => simp
    | cons w rest => cases hd : decode w <;> simp [hd]
  · simp

@[simp] theorem takeReset_next :
    takeReset s = .next t ↔ s.cfg.WellFormed ∧ t = State.powerOn s.cfg (s.powerOns + 1) := by
  rw [takeReset, elaborated_next, Host.Outcome.next.injEq, eq_comm (a := t)]

@[simp] theorem idle_next : idle s = .next t ↔ s.cfg.WellFormed ∧ t = s.unanswered := by
  rw [idle, elaborated_next, Host.Outcome.next.injEq, eq_comm (a := t)]

end Sys2Proof.Machine
end

