-- ==== Sys2Proof/Laws/PerInstr.lean ====
section
/-! SUPPORT. Statements made for every instruction, one lemma per constructor. `TableRow`: the word of an instruction
matches its row of spec/opcode_table.json, whatever its operand (30_encoding.md R103). -/

namespace Sys2Proof.Laws

/-- The `mask` of an instruction's row. -/
def tableMask : Instr → CommandWord
  | .start => 0xFFFFFFFF
  | .stop => 0xFFFFFFFF
  | .restart => 0xFFFFFFFF
  | .update => 0xFFFFFFFF
  | .pushw _ => 0xFF000000
  | .popw => 0xFFFFFFFF
  | .pushb _ => 0xFFFFFF00
  | .popb => 0xFFFFFFFF
  | .rdreg _ => 0xFFFFFF00
  | .peekw _ => 0xFFFF0000
  | .peekb _ => 0xFFFF0000

/-- The `match` of an instruction's row. -/
def tableMatch : Instr → CommandWord
  | .start => 0x01000000
  | .stop => 0x02000000
  | .restart => 0x03000000
  | .update => 0x04000000
  | .pushw _ => 0x10000000
  | .popw => 0x11000000
  | .pushb _ => 0x12000000
  | .popb => 0x13000000
  | .rdreg _ => 0x20000000
  | .peekw _ => 0x21000000
  | .peekb _ => 0x22000000

/-- The word of an instruction matches its row of the opcode table. -/
def TableRow.Statement (i : Instr) : Prop := encode i &&& tableMask i = tableMatch i

theorem TableRow.start : TableRow.Statement .start := rfl
theorem TableRow.stop : TableRow.Statement .stop := rfl
theorem TableRow.restart : TableRow.Statement .restart := rfl
theorem TableRow.update : TableRow.Statement .update := rfl
theorem TableRow.popw : TableRow.Statement .popw := rfl
theorem TableRow.popb : TableRow.Statement .popb := rfl

/-- A value of `n` bits has no bit in common with a mask above them. -/
theorem and_mask_eq_zero (n : Nat) (x mask : BitVec 32) (hx : x.toNat < 2 ^ n)
    (hm : ∀ i, i < n → mask.getLsbD i = false) : x &&& mask = 0 := by
  apply BitVec.eq_of_getLsbD_eq
  intro i _
  rcases Nat.lt_or_ge i n with h | h
  · simp [hm i h]
  · have hlt : x.toNat < 2 ^ i := Nat.lt_of_lt_of_le hx (Nat.pow_le_pow_right (by omega) h)
    have : x.getLsbD i = false := Nat.testBit_lt_two_pow hlt
    simp [this]

/-- The word of an opcode with an operand of `n` bits matches the row whose mask leaves those bits free. -/
theorem encode_and_mask (n : Nat) (op : BitVec 32) (v : BitVec 24) (mask row : BitVec 32) (hv : v.toNat < 2 ^ n)
    (hm : ∀ i, i < n → mask.getLsbD i = false) (ho : op &&& mask = row) : (op ||| v.setWidth 32) &&& mask = row := by
  have hz : v.setWidth 32 &&& mask = 0 := by
    apply and_mask_eq_zero n _ _ _ hm
    rw [BitVec.toNat_setWidth]
    exact Nat.lt_of_le_of_lt (Nat.mod_le _ _) hv
  rw [show (op ||| v.setWidth 32) &&& mask = (op &&& mask) ||| (v.setWidth 32 &&& mask) from BitVec.and_or_distrib_right ..,
    hz, ho]
  simp

/-- A value of `w` bits stays below `2 ^ w` at a larger width. -/
theorem toNat_setWidth_lt {w : Nat} (v : BitVec w) : (v.setWidth 24).toNat < 2 ^ w := by
  rw [BitVec.toNat_setWidth]; exact Nat.lt_of_le_of_lt (Nat.mod_le _ _) v.isLt

theorem TableRow.pushw (word : Word) : TableRow.Statement (.pushw word) :=
  encode_and_mask 24 ((BitVec.setWidth 32 0x10#8) <<< 24) word 0xFF000000 0x10000000 word.isLt (by decide) (by decide)

theorem TableRow.pushb (byte : Byte) : TableRow.Statement (.pushb byte) :=
  encode_and_mask 8 ((BitVec.setWidth 32 0x12#8) <<< 24) (byte.setWidth 24) 0xFFFFFF00 0x12000000 (toNat_setWidth_lt byte) (by decide) (by decide)

theorem TableRow.rdreg (reg : BitVec 8) : TableRow.Statement (.rdreg reg) :=
  encode_and_mask 8 ((BitVec.setWidth 32 0x20#8) <<< 24) (reg.setWidth 24) 0xFFFFFF00 0x20000000 (toNat_setWidth_lt reg) (by decide) (by decide)

theorem TableRow.peekw (slot : BitVec 16) : TableRow.Statement (.peekw slot) :=
  encode_and_mask 16 ((BitVec.setWidth 32 0x21#8) <<< 24) (slot.setWidth 24) 0xFFFF0000 0x21000000 (toNat_setWidth_lt slot) (by decide) (by decide)

theorem TableRow.peekb (slot : BitVec 16) : TableRow.Statement (.peekb slot) :=
  encode_and_mask 16 ((BitVec.setWidth 32 0x22#8) <<< 24) (slot.setWidth 24) 0xFFFF0000 0x22000000 (toNat_setWidth_lt slot) (by decide) (by decide)

end Sys2Proof.Laws
end

