-- ==== Sys2Proof/Laws/Response.lean ====
section
/-! SUPPORT. The fields of a response word (30_encoding.md R104). -/

namespace Sys2Proof.Machine

variable (st : Status) (ready : Bool) (data : BitVec 24)

theorem getLsbD_responseWord (i : Nat) :
    (responseWord st ready data).getLsbD i =
      (decide (i < 32) && (decide (8 ≤ i) && data.getLsbD (i - 8) || decide (4 ≤ i) && (BitVec.ofBool ready).getLsbD (i - 4)
        || (statusCode st).getLsbD i)) := by
  have hs : 4 ≤ i → (statusCode st).getLsbD i = false := fun h => BitVec.getLsbD_of_ge _ _ h
  have n8 : i < 8 ↔ ¬8 ≤ i := by omega
  have n4 : i < 4 ↔ ¬4 ≤ i := by omega
  by_cases h32 : i < 32 <;> by_cases h8 : 8 ≤ i <;> by_cases h4 : 4 ≤ i <;>
    simp [responseWord, *]

@[simp] theorem statusField_responseWord : statusField (responseWord st ready data) = statusCode st := by
  apply BitVec.eq_of_getLsbD_eq
  intro i hi
  simp only [statusField, BitVec.getLsbD_extractLsb', getLsbD_responseWord]
  interval_cases i <;> simp

@[simp] theorem readyBit_responseWord : readyBit (responseWord st ready data) = ready := by
  simp only [readyBit, getLsbD_responseWord]
  cases ready <;> simp

@[simp] theorem reservedField_responseWord : reservedField (responseWord st ready data) = 0 := by
  apply BitVec.eq_of_getLsbD_eq
  intro i hi
  simp only [reservedField, BitVec.getLsbD_extractLsb', getLsbD_responseWord]
  interval_cases i <;> cases ready <;> simp

@[simp] theorem dataField_responseWord : dataField (responseWord st ready data) = data := by
  apply BitVec.eq_of_getLsbD_eq
  intro i hi
  have hs : (statusCode st).getLsbD (8 + i) = false := BitVec.getLsbD_of_ge _ _ (by omega)
  have hr : (BitVec.ofBool ready).getLsbD (8 + i - 4) = false := BitVec.getLsbD_of_ge _ _ (by omega)
  have h32 : 8 + i < 32 := by omega
  simp only [dataField, BitVec.getLsbD_extractLsb', getLsbD_responseWord, hs, hr]
  simp [h32, hi]

/-- Two statuses with one code are one status. -/
theorem statusCode_injective {a b : Status} (h : statusCode a = statusCode b) : a = b := by
  revert h; cases a <;> cases b <;> decide

end Sys2Proof.Machine
end

