-- ==== Sys2Proof/Laws/Stream.lean ====
section
/-! SUPPORT. The packed stream of an Encoder UPDATE: lengths, and what each of its bytes is sent as. -/

namespace Sys2Proof.Machine

@[simp] theorem msbBits_length {w : Nat} (n : Nat) (v : BitVec w) : (msbBits n v).length = n := by simp [msbBits]

@[simp] theorem bytesOfBits_length (n : Nat) (bits : List Bool) : (bytesOfBits n bits).length = n := by
  induction n generalizing bits with
  | zero => rfl
  | succ n ih => simp [bytesOfBits, ih]

@[simp] theorem dataBytes_length (s : State) : s.dataBytes.length = s.bitsToPack.length / 8 := by simp [State.dataBytes]

@[simp] theorem sentBytes_length (s : State) : s.sentBytes.length = s.bitsToPack.length / 8 := by simp [State.sentBytes]

/-- A byte is sent as the Encoder's disambiguation gives it, at the `done`, `k` and `r` of its last bit (R155, R158). -/
theorem sentByte_eq_disambiguate (s : State) (m : Nat) (d : Byte) :
    s.sentByte m d = disambiguate s.cfg (s.lastBitDone m) (s.lastBitCount m) (s.lastBitRest m) d := rfl

/-- A byte that differs from the marker is sent as it is (R155). -/
@[simp] theorem sentByte_of_ne {s : State} {m : Nat} {d : Byte} (h : d ≠ s.cfg.syncSignal) : s.sentByte m d = d :=
  if_neg h

/-- How many bytes a run of data bytes takes with its markers depends on their number alone (R156). -/
theorem withMarkers_length_congr (c : Config) (bss : Nat) {ds es : List Byte} (h : ds.length = es.length) :
    (withMarkers c bss ds).length = (withMarkers c bss es).length := by
  induction ds generalizing bss es with
  | nil => cases es with
    | nil => rfl
    | cons e es => simp at h
  | cons d ds ih => cases es with
    | nil => simp at h
    | cons e es =>
      have h' : ds.length = es.length := by simpa using h
      unfold withMarkers
      split <;> simp [ih _ h']

end Sys2Proof.Machine
end

