-- ==== Sys2Proof/Tests/Slice0.lean ====
section
/-! SUPPORT. Tests: the smoke test of WellFormed, the decoding of a word of every command, single steps from the vectors
of 95_test_vectors.md (named in each test's comment), and a witness for the hypotheses of every statement that has some. -/

namespace Sys2Proof.Tests

open Sys2Proof Sys2Proof.Machine

/-! ### Helpers -/

/-- `E()` of 95_test_vectors.md. -/
def cE : Config := Config.example

/-- `R()` of 95_test_vectors.md. -/
def cR : Config := { cE with mode := .receiver }

/-- A session just opened, in Receiver mode or before the marker of Emitter mode. -/
def opened (c : Config) : State :=
  { State.powerOn c 0 with
    srBuf := Memory.zeroed 24, brBuf := Memory.zeroed 8, srState := .active, brState := .active, started := true }

/-- An open session whose SampleRing holds these entries, the last at `wr`, none consumed. -/
def withWords (c : Config) (cells : List (Nat × Word)) (wr : Cursor) : State :=
  { opened c with srBuf := ⟨cells, .zero⟩, srWr := wr }

/-- An open session whose BitRing holds these entries, the last at `wr`, none consumed. -/
def withBytes (c : Config) (cells : List (Nat × Byte)) (wr : Cursor) : State :=
  { opened c with brBuf := ⟨cells, .zero⟩, brWr := wr }

/-- The step that takes this word ends in a next state of which this holds. -/
def stepGives (s : State) (w : Nat) (ok : State → Bool) : Bool :=
  match step (s.withFetchWord 32 w) with
  | .next t => ok t
  | .fault _ => false
  | .refused _ => false

/-- The step that takes this word answers this response. -/
def answers (s : State) (w : Nat) (r : ResponseWord) : Bool := stepGives s w (fun t => t.response == some r)

/-- The command goes on. -/
def goesOn (i : Instr) (s : State) : Bool :=
  match exec i s with
  | .next _ => true
  | .fault _ => false
  | .refused _ => false

/-! ### WellFormed: an ill-formed term for each check (R6, R8, R107) -/

theorem test_config_default : cE.WellFormed := by decide
theorem test_config_wordBits_low : ¬ ({ cE with wordBits := 0 } : Config).WellFormed := by decide
theorem test_config_wordBits_high : ¬ ({ cE with wordBits := 25 } : Config).WellFormed := by decide
theorem test_config_period_low : ¬ ({ cE with syncPeriod := 1 } : Config).WellFormed := by decide
theorem test_config_period_high : ¬ ({ cE with syncPeriod := 65536 } : Config).WellFormed := by decide
theorem test_config_capS_low : ¬ ({ cE with capS := 1 } : Config).WellFormed := by decide
theorem test_config_capS_high : ¬ ({ cE with capS := 65536 } : Config).WellFormed := by decide
theorem test_config_capB_low : ¬ ({ cE with capB := 1 } : Config).WellFormed := by decide
theorem test_config_capB_high : ¬ ({ cE with capB := 65536 } : Config).WellFormed := by decide
theorem test_config_flip_short : ¬ ({ cE with flip := .table [0] } : Config).WellFormed := by decide
theorem test_operand_word : (Instr.pushw 0x1000).wellFormed cE = false ∧ (Instr.pushw 0xFFF).wellFormed cE = true := by
  decide
theorem test_operand_reg : (Instr.rdreg 0x10).wellFormed cE = false ∧ (Instr.rdreg 0x0F).wellFormed cE = true := by decide
theorem test_operand_slotS : (Instr.peekw 8).wellFormed cE = false ∧ (Instr.peekw 7).wellFormed cE = true := by decide
theorem test_operand_slotB : (Instr.peekb 8).wellFormed cE = false ∧ (Instr.peekb 7).wellFormed cE = true := by decide

/-! ### Decoding: words written bit by bit from R100, R101 and the opcode values of R103 -/

theorem test_decode_start : decode 0b00000001_000000000000000000000000 = .command .start := by decide
theorem test_decode_stop : decode 0b00000010_000000000000000000000000 = .command .stop := by decide
theorem test_decode_restart : decode 0b00000011_000000000000000000000000 = .command .restart := by decide
theorem test_decode_update : decode 0b00000100_000000000000000000000000 = .command .update := by decide
theorem test_decode_pushw : decode 0b00010000_000000000000101010110010 = .command (.pushw 0xAB2) := by decide
theorem test_decode_popw : decode 0b00010001_000000000000000000000000 = .command .popw := by decide
theorem test_decode_pushb : decode 0b00010010_0000000000000000_11000101 = .command (.pushb 0xC5) := by decide
theorem test_decode_popb : decode 0b00010011_000000000000000000000000 = .command .popb := by decide
theorem test_decode_rdreg : decode 0b00100000_0000000000000000_00001011 = .command (.rdreg 0x0B) := by decide
theorem test_decode_peekw : decode 0b00100001_00000000_1000000000000001 = .command (.peekw 0x8001) := by decide
theorem test_decode_peekb : decode 0b00100010_00000000_0100000000000010 = .command (.peekb 0x4002) := by decide

/-- N-1, N-2, N-4, N-5, N-10. -/
theorem test_decode_illegal :
    decode 0x00000000 = .illegal .reservedOp ∧ decode 0x05000000 = .illegal .reservedOp ∧
    decode 0x02000001 = .illegal .reservedBits ∧ decode 0x12000100 = .illegal .reservedBits ∧
    decode 0x22010000 = .illegal .reservedBits := by decide

/-- The words of the assembler vectors of 95_test_vectors.md §2.1. -/
theorem test_encode :
    encode (.pushw 0x0AB) = 0x100000AB ∧ encode (.pushb 0xFF) = 0x120000FF ∧ encode (.rdreg 8) = 0x20000008 ∧
    encode (.peekb 3) = 0x22000003 ∧ encode .update = 0x04000000 := by decide

theorem test_decodeTableWord :
    decodeTableWord 32 0x13000000 = some .popb ∧ decodeTableWord 32 0x13000001 = none ∧
    decodeTableWord 40 0x13000000 = none := by decide

/-- The assembler vectors of 95_test_vectors.md §2.1, in their modes. -/
theorem test_assemble_plain :
    assembleText cE "PUSHW 0x0AB".toList = some [0x100000AB] ∧ assembleText cR "PUSHB 0xFF".toList = some [0x120000FF] ∧
    assembleText cE "RDREG BR_WR".toList = some [0x20000008] ∧ assembleText cE "PEEKB 3 ; slot".toList = some [0x22000003] := by
  decide
theorem test_assemble_pseudo :
    assembleText cE "FEED 0x123".toList = some [0x10000123, 0x04000000] ∧
    assembleText cR "RECV 0x0A".toList = some [0x1200000A, 0x04000000] ∧
    assembleText cE "PUSHW 0x1000".toList = none := by decide

/-! ### Single steps -/

/-- A word runs as the first command after reset. -/
theorem test_first_step : stepGives State.reset 0x01000000 (fun t => t.srState == .active && t.brWr == 1) = true := by decide

/-- N-3: an illegal word is answered ILLEGAL. -/
theorem test_illegal_word : answers State.reset 0xFF000000 0x0000000B = true := by decide

/-- S-1. -/
theorem test_start_emitter :
    stepGives State.reset 0x01000000 (fun t =>
      t.response == some 0x00000000 && t.brWr == 1 && t.brRd == 0 && t.brBuf.read 1 == 0xFF && t.started) = true := by
  decide
/-- S-3, S-10. -/
theorem test_start_checks :
    answers (opened cE) 0x01000000 0x00000009 = true ∧
    answers (State.powerOn { cE with wordBits := 17, capB := 3 } 0) 0x01000000 0x00000004 = true := by decide

/-- S-15: STOP clears SYNC in Receiver mode and keeps the cursors. -/
theorem test_stop_receiver :
    stepGives { withBytes cR [(1, 0xFF), (2, 0x0A)] 2 with brRd := 1, brSync := true } 0x02000000 (fun t =>
      t.response == some 0 && !t.brSync && t.brRd == 1 && t.brWr == 2 && t.brState == .inactive) = true := by decide

/-- S-12: RESTART drops the half byte and keeps the buffer. -/
theorem test_restart :
    stepGives { withBytes cE [(1, 0xFF), (2, 0x0A)] 2 with brBit := 4, encAcc := 0xB0 } 0x03000000 (fun t =>
      t.response == some 0 && t.brWr == 1 && t.encAcc == 0 && t.brBit == 0 && t.brBuf.read 2 == 0x0A) = true := by decide
/-- S-4. -/
theorem test_restart_not_started : answers (State.powerOn cR 0) 0x03000000 0x00000008 = true := by decide

/-- E-1. -/
theorem test_update_encoder :
    stepGives { withWords cE [(1, 0x0AB), (2, 0x123)] 2 with brBuf := ⟨[(1, 0xFF)], .zero⟩, brWr := 1 } 0x04000000 (fun t =>
      t.response == some 0x00000010 && t.brBuf == ⟨[(1, 0xFF), (2, 0x0A), (3, 0xB1), (4, 0x23)], .zero⟩ && t.brBss == 3)
      = true := by decide
/-- E-11, which tells the flip index of R158 case 2 from the others. -/
theorem test_update_flip :
    stepGives (withWords { cE with wordBits := 3 } [(1, 7), (2, 7), (3, 7)] 3) 0x04000000 (fun t =>
      t.brBuf.read 1 == 0xFB && t.encAcc == 0x80 && t.brBit == 1) = true := by decide
/-- E-15: the marker after P-1 data bytes. -/
theorem test_update_marker :
    stepGives (withWords { cE with wordBits := 8, syncPeriod := 4 } [(1, 1), (2, 2), (3, 3), (4, 4)] 4) 0x04000000 (fun t =>
      t.brBuf == ⟨[(1, 1), (2, 2), (3, 3), (4, 0xFF), (5, 4)], .zero⟩ && t.brBss == 1) = true := by decide
/-- The second UPDATE with a Word in D-1. -/
theorem test_update_decoder :
    stepGives { withBytes cR [(1, 0xFF), (2, 0x0A), (3, 0xB1)] 3 with brRd := 1, brSync := true } 0x04000000 (fun t =>
      t.response == some 0x00000010 && t.srBuf.read 1 == 0x0AB && t.brRd == 2 && t.brBit == 4 && t.brBss == 1) = true := by
  decide
/-- D-4: a marker while synchronized discards the unread bits. -/
theorem test_update_resynchronize :
    stepGives { withBytes cR [(1, 0xFF), (2, 0x12), (3, 0xFF)] 3 with brRd := 1, brSync := true } 0x04000000 (fun t =>
      t.response == some 0x00000002 && t.brRd == 3 && t.brBit == 0) = true := by decide

/-- N-11, N-12. -/
theorem test_pushw :
    answers (opened cE) 0x10001000 0x0000000B = true ∧
    stepGives (opened cE) 0x10000FFF (fun t => t.response == some 0 && t.srBuf.read 1 == 0xFFF && t.srWr == 1) = true := by
  decide
/-- N-16, N-15: the operand's check comes before the mode's. -/
theorem test_pushw_order :
    answers (State.powerOn cR 0) 0x10001000 0x0000000B = true ∧ answers (State.powerOn cR 0) 0x10000002 0x0000000A = true := by
  decide
/-- P-13, P-8. -/
theorem test_popw :
    answers (withWords cR [(1, 0x0AB), (2, 0x123)] 2) 0x11000000 0x0000AB00 = true ∧
    answers (opened cR) 0x11000000 0x00000006 = true := by decide
/-- P-9, P-3. -/
theorem test_pushb :
    stepGives (opened cR) 0x120000FF (fun t => t.response == some 0 && t.brBuf.read 1 == 0xFF && t.brWr == 1 && !t.brSync)
      = true ∧
    answers (State.powerOn cR 0) 0x12000001 0x00000007 = true := by decide
/-- P-7, P-2. -/
theorem test_popb :
    answers (withBytes cE [(1, 0xFF)] 1) 0x13000000 0x0000FF00 = true ∧
    answers (State.powerOn cR 0) 0x13000000 0x0000000A = true := by decide
/-- B-1, B-2, N-6. -/
theorem test_rdreg_config :
    answers (opened cR) 0x20000000 0x00FF2C00 = true ∧ answers (opened cE) 0x20000000 0x00FF0C00 = true ∧
    answers (opened cR) 0x20000010 0x0000000B = true := by decide
/-- B-14. -/
theorem test_rdreg_acc :
    answers { opened cE with encAcc := 0xB0, brBit := 4 } 0x2000000E 0x0000B000 = true ∧
    answers { opened cE with encAcc := 0xB0, brBit := 4 } 0x2000000A 0x00000400 = true := by decide
/-- B-13, B-12. -/
theorem test_peekw :
    answers (withWords cE [(1, 0x123)] 1) 0x21000001 0x00012300 = true ∧ answers (opened cE) 0x21000008 0x0000000B = true := by
  decide
/-- B-11, and slot 3 of 95_test_vectors.md program P3. -/
theorem test_peekb :
    answers (opened cR) 0x22000007 0x00000000 = true ∧
    answers (withBytes cE [(1, 0xFF), (2, 0x11), (3, 0x12)] 3) 0x22000003 0x00001200 = true := by decide

/-! ### Witnesses: concrete states and operands that meet the hypotheses of each statement, for each clause -/

/-- A sound Emitter, one Word and half a byte before it. -/
def emitter : State :=
  { withWords cE [(1, 0x0AB)] 1 with brBuf := ⟨[(1, 0xFF), (2, 0x0A)], .zero⟩, brWr := 2, brBit := 4, brBss := 1,
                                     encAcc := 0xB0 }

/-- A sound Receiver, synchronized, two bytes before it. -/
def receiver : State :=
  { withBytes cR [(1, 0xFF), (2, 0x0A), (3, 0xB1)] 3 with brRd := 1, brSync := true }

/-- The Receiver with its SampleRing full. -/
def receiverFull : State :=
  { withBytes { cR with capS := 2 } [(1, 0xFF), (2, 0x0A), (3, 0xB1)] 3 with
    brRd := 1, brSync := true, srBuf := ⟨[(1, 5)], .zero⟩, srWr := 1 }

/-- The Emitter of E-5, with room for exactly the three bytes it has to push. -/
def emitterExact : State :=
  { withWords { cE with capB := 5 } [(1, 0x00F), (2, 0xF00)] 2 with brBuf := ⟨[(1, 0xFF)], .zero⟩, brWr := 1 }

/-- An Emitter with both rings full. -/
def emitterFull : State :=
  { withWords { cE with capS := 2, capB := 3 } [(1, 5)] 1 with brBuf := ⟨[(1, 0xFF), (2, 0x0A)], .zero⟩, brWr := 2 }

theorem emitter_sound : emitter.Sound := by refine ⟨?_, ?_, ?_, ?_, ?_, ?_, ?_, ?_, ?_, ?_⟩ <;> decide
theorem receiver_sound : receiver.Sound := by refine ⟨?_, ?_, ?_, ?_, ?_, ?_, ?_, ?_, ?_, ?_⟩ <;> decide
theorem receiverFull_sound : receiverFull.Sound := by refine ⟨?_, ?_, ?_, ?_, ?_, ?_, ?_, ?_, ?_, ?_⟩ <;> decide
theorem emitterExact_sound : emitterExact.Sound := by refine ⟨?_, ?_, ?_, ?_, ?_, ?_, ?_, ?_, ?_, ?_⟩ <;> decide
theorem emitterFull_sound : emitterFull.Sound := by refine ⟨?_, ?_, ?_, ?_, ?_, ?_, ?_, ?_, ?_, ?_⟩ <;> decide
theorem openedE_sound : (opened cE).Sound := by refine ⟨?_, ?_, ?_, ?_, ?_, ?_, ?_, ?_, ?_, ?_⟩ <;> decide
theorem openedR_sound : (opened cR).Sound := by refine ⟨?_, ?_, ?_, ?_, ?_, ?_, ?_, ?_, ?_, ?_⟩ <;> decide

theorem witness_EncodeInvertsDecode :
    decode 0x100000AB = .command (.pushw 0xAB) ∧ encode (.pushw 0xAB) = 0x100000AB := by decide

/-- Each clause of the reserved range, at its ends, in a state that is about to take the word. -/
theorem witness_ReservedOpAnswersIllegal :
    State.reset.cfg.WellFormed ∧ (State.reset.present 0x00000000).resetLine = false ∧
    (State.reset.present 0x00000000).pending = 0x00000000 :: [] ∧
    (0x05 ≤ (0x05000000 : CommandWord).toNat / 2 ^ 24 ∧ (0x0F000000 : CommandWord).toNat / 2 ^ 24 ≤ 0x0F) ∧
    (0x14 ≤ (0x14000000 : CommandWord).toNat / 2 ^ 24 ∧ (0x1F000000 : CommandWord).toNat / 2 ^ 24 ≤ 0x1F) ∧
    0x23 ≤ (0x23000000 : CommandWord).toNat / 2 ^ 24 ∧ 0x23 ≤ (0xFF000000 : CommandWord).toNat / 2 ^ 24 := by decide

theorem witness_IllegalOperandAnswersIllegal :
    emitter.cfg.WellFormed ∧ (emitter.present 0x02000001).resetLine = false ∧
    (emitter.present 0x02000001).pending = 0x02000001 :: [] ∧
    ((0x02000001 : CommandWord).toNat / 2 ^ 24 ∈ [0x01, 0x02, 0x03, 0x04, 0x11, 0x13] ∧
      (0x02000001 : CommandWord).toNat % 2 ^ 24 ≠ 0) ∧
    ((0x12000100 : CommandWord).toNat / 2 ^ 24 ∈ [0x12, 0x20] ∧ (0x12000100 : CommandWord).toNat / 2 ^ 8 % 2 ^ 16 ≠ 0) ∧
    ((0x22010000 : CommandWord).toNat / 2 ^ 24 ∈ [0x21, 0x22] ∧ (0x22010000 : CommandWord).toNat / 2 ^ 16 % 2 ^ 8 ≠ 0) ∧
    2 ^ emitter.cfg.wordBits ≤ (0x1000 : Word).toNat ∧ 0x0F < (0x10 : BitVec 8).toNat ∧
    emitter.cfg.capS ≤ (8 : BitVec 16).toNat ∧ emitter.cfg.capB ≤ (8 : BitVec 16).toNat := by decide

/-- Each bound of the clauses, met and missed by one, and a line that is accepted. -/
theorem witness_AssemblerMakesLegalWords :
    (0xFFF : Word).toNat < 2 ^ cE.wordBits ∧ ¬ (0x1000 : Word).toNat < 2 ^ cE.wordBits ∧
    (0x0F : BitVec 8).toNat ≤ 0x0F ∧ ¬ (0x10 : BitVec 8).toNat ≤ 0x0F ∧ (7 : BitVec 16).toNat < cE.capS ∧
    ¬ (8 : BitVec 16).toNat < cE.capS ∧ (7 : BitVec 16).toNat < cE.capB ∧ ¬ (8 : BitVec 16).toNat < cE.capB ∧
    cE.mode = .emitter ∧ cR.mode = .receiver ∧ 8 ≤ cE.wordBits ∧ 3 < cE.capB ∧
    assemble cE (.feed 0xFFF) = some [0x10000FFF, 0x04000000] := by decide

theorem witness_StepRunsDecodedCommand :
    (emitter.present 0x04000000).resetLine = false ∧ (emitter.present 0x04000000).pending = 0x04000000 :: [] ∧
    decode 0x04000000 = .command .update := by decide

theorem witness_StepWithoutCommandChangesNothing :
    emitter.cfg.WellFormed ∧ emitter.resetLine = false ∧ emitter.pending = [] := by decide

theorem witness_ResetClearsEverything : emitter.cfg.WellFormed ∧ emitter.assertReset.resetLine = true := by decide

theorem witness_ResetStateSound : cR.WellFormed := by decide

theorem witness_StepKeepsSound : ∃ s t, State.Sound s ∧ step s = .next t := ⟨emitter, _, emitter_sound, rfl⟩

theorem witness_SoundStateAlwaysSteps : receiver.Sound := receiver_sound

theorem witness_ReachableStatesSound :
    cE.WellFormed ∧ Reachable cE ((State.powerOn cE 0).present 0x01000000).assertReset :=
  ⟨by decide, .assertReset _ (.present _ _ (.powerOn 0))⟩

theorem witness_StepKeepsParameters : ∃ t, step receiver = .next t := ⟨_, rfl⟩

theorem witness_StepKeepsCanonicalForm : ∃ s t, State.Canonical s ∧ step s = .next t := ⟨receiver, _, by decide, rfl⟩

theorem witness_CanonicalMemoriesEqualIfReadAlike :
    receiver.brBuf.wf = true ∧ (Memory.zeroed 8).wf = true ∧ receiver.brBuf.fill = (Memory.zeroed 8).fill ∧
    ∀ slot, receiver.brBuf.read slot = receiver.brBuf.read slot := ⟨by decide, by decide, by decide, fun _ => rfl⟩

/-- CONFIG_ERROR and OK at the two sides of the size check, and the operands of the other clauses at their ends. -/
theorem witness_CommandsAfterReset :
    ({ cE with capB := 2 } : Config).WellFormed ∧ 2 < 1 + (cE.wordBits + 7) / 8 ∧
    ({ cR with capB := 3 } : Config).WellFormed ∧ 1 + (cR.wordBits + 7) / 8 ≤ 3 ∧
    (0xFFF : Word).toNat < 2 ^ cE.wordBits ∧ 0x04 ≤ (0x04 : BitVec 8).toNat ∧ (0x0F : BitVec 8).toNat ≤ 0x0F ∧
    (7 : BitVec 16).toNat < cE.capS ∧ (7 : BitVec 16).toNat < cE.capB := by decide

theorem witness_StartOpensSession :
    State.reset.cfg.WellFormed ∧ State.reset.srState ≠ .active ∧
    1 + (State.reset.cfg.wordBits + 7) / 8 ≤ State.reset.cfg.capB := by decide

theorem witness_StartChecksInOrder :
    emitter.cfg.WellFormed ∧ emitter.srState = .active ∧
    (State.powerOn { cE with capB := 2 } 0).cfg.WellFormed ∧ (State.powerOn { cE with capB := 2 } 0).srState ≠ .active ∧
    (State.powerOn { cE with capB := 2 } 0).cfg.capB < 1 + (cE.wordBits + 7) / 8 := by decide

theorem witness_StopClosesSessionInEveryState : receiver.cfg.WellFormed := by decide

theorem witness_RestartRewindsAndKeepsBuffers : receiver.cfg.WellFormed ∧ receiver.started = true := by decide

theorem witness_RestartNeedsStart : State.reset.cfg.WellFormed ∧ State.reset.started = false := by decide

theorem witness_StartAndRestartNeverOverrun :
    ∃ t r, exec .restart emitter = .next t ∧ t.response = some r := ⟨_, _, rfl, rfl⟩

theorem witness_OnlySessionCommandsWriteSession :
    goesOn .update emitter = true ∧ goesOn .stop receiver = true := by decide

/-- The synchronized Receiver meets the hypotheses, and refutes the conclusion: its unread bytes outlive STOP. -/
theorem witness_StopKeepsUnsynchronizedRingEmpty :
    receiver.cfg.mode = .receiver ∧ (receiver.brSync = false → receiver.brRd = receiver.brWr ∧ receiver.brBit = 0) ∧
    goesOn .stop receiver = true := by decide

theorem witness_PortChecksInOrder :
    emitter.cfg.WellFormed ∧ receiver.cfg.WellFormed ∧ receiver.cfg.mode = .receiver ∧ emitter.cfg.mode = .emitter ∧
    (0xFFF : Word).toNat < 2 ^ receiver.cfg.wordBits ∧ (State.powerOn cR 0).brState = .inactive ∧
    (State.powerOn cE 0).srState = .inactive ∧ goesOn .popb emitter = true ∧ goesOn (.pushw 1) emitter = true := by decide

theorem witness_PushwWritesNextSlot :
    emitter.cfg.WellFormed ∧ (0xFFF : Word).toNat < 2 ^ emitter.cfg.wordBits ∧ emitter.cfg.mode = .emitter ∧
    emitter.srState = .active ∧ emitter.fullS = false := by decide

theorem witness_PushbWritesNextSlot :
    receiver.cfg.WellFormed ∧ receiver.cfg.mode = .receiver ∧ receiver.brState = .active ∧ receiver.fullB = false := by decide

theorem witness_PopbAnswersNextByte :
    emitter.cfg.WellFormed ∧ emitter.cfg.mode = .emitter ∧ emitter.brState = .active ∧ emitter.emptyB = false := by decide

theorem witness_PopwAnswersNextWord :
    receiverFull.cfg.WellFormed ∧ receiverFull.cfg.mode = .receiver ∧ receiverFull.srState = .active ∧
    receiverFull.emptyS = false := by decide

/-- The Receiver's BitRing of capacity 4, full. -/
theorem witness_PushIntoFullRingOverruns :
    emitterFull.cfg.WellFormed ∧ emitterFull.cfg.mode = .emitter ∧ emitterFull.srState = .active ∧
    emitterFull.fullS = true ∧ (0 : Word).toNat < 2 ^ emitterFull.cfg.wordBits ∧
    (withBytes { cR with capB := 4 } [(1, 1), (2, 2), (3, 3)] 3).cfg.WellFormed ∧
    (withBytes { cR with capB := 4 } [(1, 1), (2, 2), (3, 3)] 3).fullB = true := by decide

/-- Each clause in a session of its mode; the last with one byte unread, 8 bits of the 12. -/
theorem witness_EmptyRingAtItsConsumers :
    (opened cE).cfg.WellFormed ∧ (opened cE).cfg.mode = .emitter ∧ (opened cE).brState = .active ∧
    (opened cE).emptyB = true ∧ (opened cE).InRange ∧ (opened cE).emptyS = true ∧ (opened cR).emptyS = true ∧
    (let s := { withBytes cR [(1, 0xFF), (2, 0x0A)] 2 with brRd := 1, brSync := true }
     s.InRange ∧ s.markerSeen = false ∧ s.avail = 8 ∧ s.avail < s.cfg.wordBits) := by decide

theorem witness_RingHoldsOneLessThanCapacity : emitterFull.cfg.WellFormed ∧ emitterFull.InRange := by decide

theorem witness_PortsAreFirstInFirstOut_push :
    (∃ t, exec (.pushw 0xFFF) emitter = .next t ∧ t.response = some (responseWord .ok false 0)) ∧
    ∃ t, exec (.pushb 0xFF) receiver = .next t ∧ t.response = some (responseWord .ok false 0) :=
  ⟨⟨_, rfl, rfl⟩, ⟨_, rfl, rfl⟩⟩

theorem witness_PortsAreFirstInFirstOut_pop :
    (∃ t, exec .popb emitter = .next t ∧ t.response = some (responseWord .ok false 0xFF)) ∧
    ∃ t, exec .popw receiverFull = .next t ∧ t.response = some (responseWord .ok false 5) :=
  ⟨⟨_, rfl, by decide⟩, ⟨_, rfl, by decide⟩⟩

theorem witness_UnreadItemsNeverOverwritten :
    ∃ t, exec .update receiver = .next t ∧ Instr.update ≠ .start ∧ Instr.update ≠ .restart :=
  ⟨_, rfl, by decide, by decide⟩

theorem witness_RdregAnswersEachRegister : emitter.cfg.WellFormed := by decide

theorem witness_PeeksAnswerSlots :
    emitter.cfg.WellFormed ∧ (7 : BitVec 16).toNat < emitter.cfg.capS ∧ (7 : BitVec 16).toNat < emitter.cfg.capB := by decide

/-- Two states that differ in a buffer alone answer RDREG alike. -/
theorem witness_RegistersShowEveryElement (reg : BitVec 8) (s' t' : State) (h : reg.toNat ≤ 0x0F)
    (hs : exec (.rdreg reg) (opened cE) = .next s')
    (ht : exec (.rdreg reg) (withWords cE [(1, 1)] 0) = .next t') : s'.response = t'.response := by
  have hr : regLegal reg = true := by simp [regLegal, h]
  have wfs : (opened cE).cfg.WellFormed := by decide
  have wft : (withWords cE [(1, 1)] 0).cfg.WellFormed := by decide
  simp only [exec, execRdreg, elaborated, checkedOperand, hr, if_true, raiseOk] at hs ht
  rw [if_pos wfs, Host.Outcome.next.injEq] at hs
  rw [if_pos wft, Host.Outcome.next.injEq] at ht
  subst hs
  subst ht
  show some _ = some _
  cases regMap.getD reg.toNat .config0 <;> rfl

theorem witness_UpdateNeedsActiveSession : State.reset.cfg.WellFormed ∧ State.reset.srState ≠ .active := by decide

theorem witness_DefaultFlipIndex : cE.flip = .specDefault ∧ 1 ≤ 1 ∧ 7 < 8 := by decide

theorem witness_FlipTableRealizesAnyFunction : 1 ≤ 1 ∧ 8 ≤ 8 ∧ 23 < 24 := by decide

/-- The four branches: a full ring, no marker due, a marker due without room, a marker due with room. -/
theorem witness_PushDataCountsAndInsertsMarkers :
    (emitterFull.cfg.WellFormed ∧ emitterFull.InRange ∧ emitterFull.brBss.toNat + 2 ≤ emitterFull.cfg.syncPeriod ∧
      emitterFull.fullB = true) ∧
    (emitter.InRange ∧ emitter.fullB = false ∧ emitter.brBss.toNat + 2 < emitter.cfg.syncPeriod) ∧
    (let s := opened { cE with syncPeriod := 2, capB := 2 }
     s.cfg.WellFormed ∧ s.InRange ∧ s.fullB = false ∧ s.brBss.toNat + 2 = s.cfg.syncPeriod ∧
      inc s.nextWriteB s.cfg.capB = s.brRd) ∧
    (let s := opened { cE with syncPeriod := 2, capB := 3 }
     s.cfg.WellFormed ∧ s.InRange ∧ s.fullB = false ∧ s.brBss.toNat + 2 = s.cfg.syncPeriod ∧
      inc s.nextWriteB s.cfg.capB ≠ s.brRd) := by decide

/-- With `openedE_sound`, `emitter_sound`, `emitterExact_sound` and `emitterFull_sound`: the empty ring, room to spare, room
for exactly all of it, and one byte too many. -/
theorem witness_EncoderUpdateOutcomes :
    (opened cE).cfg.mode = .emitter ∧ (opened cE).srState = .active ∧ (opened cE).emptyS = true ∧
    emitter.cfg.mode = .emitter ∧ emitter.srState = .active ∧ emitter.emptyS = false ∧
    emitter.outgoing.length < emitter.roomB ∧
    emitterExact.cfg.mode = .emitter ∧ emitterExact.srState = .active ∧ emitterExact.emptyS = false ∧
    emitterExact.outgoing.length = emitterExact.roomB ∧
    emitterFull.cfg.mode = .emitter ∧ emitterFull.srState = .active ∧ emitterFull.emptyS = false ∧
    emitterFull.roomB + 1 = emitterFull.outgoing.length := by decide

/-- With `emitter_sound` and `emitterExact_sound`. The first has 16 bits before it, two whole bytes; the second a byte equal
to the marker, which goes out with bit 4 flipped, as in E-5. -/
theorem witness_EncoderStreamsPackedBits :
    emitter.cfg.mode = .emitter ∧ emitter.srState = .active ∧ emitter.emptyS = false ∧
    emitter.outgoing = [0xB0, 0xAB] ∧ emitter.outgoing.length ≤ emitter.roomB ∧
    emitterExact.cfg.mode = .emitter ∧ emitterExact.srState = .active ∧ emitterExact.emptyS = false ∧
    emitterExact.dataBytes = [0x00, 0xFF, 0x00] ∧ emitterExact.outgoing = [0x00, 0xEF, 0x00] ∧
    emitterExact.outgoing.length ≤ emitterExact.roomB := by decide

theorem witness_EncoderConservesBits :
    emitterFull.cfg.mode = .emitter ∧ emitterFull.srState = .active ∧ goesOn .update emitterFull = true := by decide

/-- With `emitter_sound`, and an Emitter that is not Active. -/
theorem witness_EncoderUpdateFrame :
    emitter.cfg.mode = .emitter ∧ goesOn .update emitter = true ∧ (1 : Cursor).toNat < emitter.cfg.capB ∧
    depth emitter.brWr emitter.brWr emitter.cfg.capB < depth 1 emitter.brWr emitter.cfg.capB ∧
    emitter.srState = .active ∧ goesOn .update State.reset = true ∧ State.reset.srState ≠ .active := by decide

theorem witness_DecoderSynchronizesOnNewestMarker :
    (let s := withBytes cR [(1, 0x12), (2, 0xFF)] 2
     s.cfg.WellFormed ∧ s.InRange ∧ s.cfg.mode = .receiver ∧ s.srState = .active ∧ s.brWr ≠ s.brRd ∧
      s.brBuf.read s.brWr.toNat = s.cfg.syncSignal) := by decide

/-- The two clauses of its last hypothesis: an empty BitRing, and a newest byte that is no marker. -/
theorem witness_UnsynchronizedDecoderDiscardsBytes :
    (opened cR).cfg.WellFormed ∧ (opened cR).InRange ∧ (opened cR).cfg.mode = .receiver ∧ (opened cR).srState = .active ∧
    (opened cR).brSync = false ∧ (opened cR).brWr = (opened cR).brRd ∧
    (withBytes cR [(1, 0xFE)] 1).InRange ∧
    (withBytes cR [(1, 0xFE)] 1).brBuf.read 1 ≠ cR.syncSignal := by decide

/-- With `receiver_sound`. -/
theorem witness_DecoderExtractsOneWord :
    receiver.cfg.mode = .receiver ∧ receiver.srState = .active ∧ receiver.brSync = true ∧ receiver.markerSeen = false ∧
    receiver.cfg.wordBits ≤ receiver.avail ∧ receiver.fullS = false := by decide

/-- With `receiverFull_sound`. -/
theorem witness_DecoderOverrunConsumesTheBits :
    receiverFull.cfg.mode = .receiver ∧ receiverFull.srState = .active ∧ receiverFull.brSync = true ∧
    receiverFull.markerSeen = false ∧ receiverFull.cfg.wordBits ≤ receiverFull.avail ∧ receiverFull.fullS = true := by decide

theorem witness_DecoderUpdateFrame : receiver.cfg.mode = .receiver ∧ goesOn .update receiver = true := by decide

/-- With `openedR_sound`. -/
theorem witness_SynchronizationAcquiredAfterAnyPrefix :
    (opened cR).cfg.mode = .receiver ∧ (opened cR).srState = .active ∧ (opened cR).brSync = false ∧
    (opened cR).emptyB = true ∧ ∀ b ∈ [(0x00 : Byte), 0xFE], b ≠ (opened cR).cfg.syncSignal := by decide

/-- The configuration of program P1 of 95_test_vectors.md, and its two Words. -/
def e₀ : State := withBytes cE [(1, 0xFF)] 1
def e₁ : State := { e₀ with srBuf := ⟨[(1, 0xABC), (2, 0x123)], .zero⟩, srWr := 2, response := some 0 }
def e₂ : State :=
  { e₁ with srRd := 2, brBuf := ⟨[(1, 0xFF), (2, 0xAB), (3, 0xC1), (4, 0x23)], .zero⟩, brWr := 4, brBss := 3,
            response := some 0x10 }
def r₁ : State :=
  { opened cR with
    brBuf := ⟨[(1, 0xFF), (2, 0xAB), (3, 0xC1), (4, 0x23)], .zero⟩, brWr := 4, brRd := 4, brSync := true, brBss := 3,
    srBuf := ⟨[(1, 0xABC), (2, 0x123)], .zero⟩, srWr := 2, response := some 2 }

theorem witness_RoundTripOfOneBatch_emitter :
    cE.WellFormed ∧ cE.mode = .emitter ∧ afterOk .start (State.powerOn cE 0) = some { e₀ with response := some 0 } ∧
    sendWords [0xABC, 0x123] { e₀ with response := some 0 } = some e₁ ∧ afterOk .update e₁ = some e₂ ∧
    (∀ d ∈ bytesOfBits (2 * cE.wordBits / 8) e₁.bitsToPack, d ≠ cE.syncSignal) ∧
    cE.wordBits ∣ 8 * (cE.syncPeriod - 1) ∧ 2 * cE.wordBits / 8 < cE.syncPeriod - 1 := by decide

theorem witness_RoundTripOfOneBatch_receiver :
    afterOk .start (State.powerOn cR 0) = some { opened cR with response := some 0 } ∧
    deliver e₂.unreadBytes { opened cR with response := some 0 } = some r₁ := by decide

theorem witness_EveryResponseIsWellFormed :
    goesOn .popb emitter = true ∧ goesOn .update emitter = true ∧ goesOn (.rdreg 0x10) emitter = true := by decide

theorem witness_FailedChecksChangeNothing :
    answers State.reset 0x10FFFFFF 0x0000000B = true ∧ answers State.reset 0x11000000 0x0000000A = true ∧
    answers emitter 0x01000000 0x00000009 = true ∧ answers State.reset 0x03000000 0x00000008 = true ∧
    answers State.reset 0x04000000 0x00000007 = true ∧
    answers (State.powerOn { cE with capB := 2 } 0) 0x01000000 0x00000004 = true ∧
    answers (opened cR) 0x11000000 0x00000006 = true := by decide

theorem witness_WrongModeExactlyWhereNoAgentIssues :
    Instr.popw.wellFormed emitter.cfg = true ∧ goesOn .popw emitter = true ∧
    (Instr.pushw 0xFFF).wellFormed receiver.cfg = true ∧ goesOn (.pushw 0xFFF) receiver = true := by decide

end Sys2Proof.Tests
end

/-! ## What a command can do when it goes on

One inversion lemma per command and one for a step, each from the laws of the shared operations; then the statuses a
command may end in (60_exceptions.md R250) and the parameters it keeps (00_scope.md R6). -/

namespace Sys2Proof.Machine

section CommandOutcomes

variable {s t : State}

/-- START (R131, R132). -/
theorem execStart_next :
    execStart s = .next t ↔ s.cfg.WellFormed ∧
      ((s.srState = .active ∧ t = s.respond (responseWord .stateError false 0)) ∨
       (s.srState ≠ .active ∧ s.cfg.capB < 1 + wordBytes s.cfg ∧ t = s.respond (responseWord .configError false 0)) ∨
       (s.srState ≠ .active ∧ 1 + wordBytes s.cfg ≤ s.cfg.capB ∧
         startMarker s.zeroFill.clearCursors.activate.markStarted = .next t)) := by
  unfold execStart
  by_cases ha : s.srState = .active
  · simp [ha]
  · by_cases hc : s.cfg.capB < 1 + wordBytes s.cfg
    · simp [ha, hc, Nat.not_le.2 hc]
    · simp [ha, hc, Nat.not_lt.1 hc]

/-- STOP (R136). -/
theorem execStop_next :
    execStop s = .next t ↔ s.cfg.WellFormed ∧
      ((s.cfg.mode = .emitter ∧ t = s.deactivate.respond (responseWord .ok false 0)) ∨
       (s.cfg.mode = .receiver ∧ t = s.deactivate.clearSync.respond (responseWord .ok false 0))) := by
  unfold execStop; cases hm : s.cfg.mode <;> simp

/-- RESTART (R138). -/
theorem execRestart_next :
    execRestart s = .next t ↔ s.cfg.WellFormed ∧
      ((s.started = true ∧ startMarker s.clearCursors.activate = .next t) ∨
       (s.started = false ∧ t = s.respond (responseWord .notStarted false 0))) := by
  unfold execRestart; cases hs : s.started <;> simp

/-- UPDATE (R150). -/
theorem execUpdate_next :
    execUpdate s = .next t ↔ s.cfg.WellFormed ∧
      ((s.srState ≠ .active ∧ t = s.respond (responseWord .notActive false 0)) ∨
       (s.srState = .active ∧ s.InRange ∧ s.cfg.mode = .emitter ∧ encoderUpdate s = .next t) ∨
       (s.srState = .active ∧ s.InRange ∧ s.cfg.mode = .receiver ∧ decoderUpdate s = .next t)) := by
  rw [execUpdate, elaborated_next]
  refine and_congr_right fun _ => ?_
  by_cases ha : s.srState = .active
  · rw [if_neg (not_not_intro ha)]
    by_cases hr : s.InRange
    · rw [if_pos hr]
      cases s.cfg.mode <;> simp only [ha, eq_true hr, ne_eq, not_true_eq_false, false_and, true_and, and_false, reduceCtorEq,
        or_false, false_or]
    · rw [if_neg hr]
      simp only [ha, hr, ne_eq, not_true_eq_false, false_and, and_false, reduceCtorEq, or_false]
  · simp [ha]

/-- How a ring port that goes on ends: it belongs to mode `mode`, touches a ring in state `ring` that bars it with status
`bar` where `barred`, and otherwise leaves `done` and answers `data` (R210 to R214). -/
inductive PortOutcome (mode : Mode) (ring : RingState) (barred : Bool) (bar : Status) (data : BitVec 24) (done s : State) :
    State → Prop where
  | wrongMode (hm : s.cfg.mode ≠ mode) :
      PortOutcome mode ring barred bar data done s (s.respond (responseWord .wrongMode false 0))
  | notActive (hm : s.cfg.mode = mode) (hr : ring ≠ .active) :
      PortOutcome mode ring barred bar data done s (s.respond (responseWord .notActive false 0))
  | barred (hm : s.cfg.mode = mode) (hr : ring = .active) (hb : barred = true) :
      PortOutcome mode ring barred bar data done s (s.respond (responseWord bar false 0))
  | done (hm : s.cfg.mode = mode) (hr : ring = .active) (hb : barred = false) :
      PortOutcome mode ring barred bar data done s (done.respond (responseWord .ok false data))

theorem port_outcome {mode : Mode} {ring : RingState} {barred : Bool} {bar : Status} {data : BitVec 24} {done : State} :
    port mode ring s (if barred then raise bar s else raiseOk data false done) = .next t ↔
      PortOutcome mode ring barred bar data done s t := by
  rw [port_next]
  constructor
  · rintro (⟨hm, rfl⟩ | ⟨hm, hr, rfl⟩ | ⟨hm, hr, h⟩)
    · exact .wrongMode hm
    · exact .notActive hm hr
    · cases hb : barred with
      | true =>
        obtain rfl := raise_next bar |>.1 (by simpa [hb] using h)
        exact .barred hm hr rfl
      | false =>
        obtain rfl := raiseOk_next data false |>.1 (by simpa [hb] using h)
        exact .done hm hr rfl
  · rintro (hm | ⟨hm, hr⟩ | ⟨hm, hr, hb⟩ | ⟨hm, hr, hb⟩)
    · exact .inl ⟨hm, rfl⟩
    · exact .inr (.inl ⟨hm, hr, rfl⟩)
    · exact .inr (.inr ⟨hm, hr, by simp [hb]⟩)
    · exact .inr (.inr ⟨hm, hr, by simp [hb]⟩)

/-- PUSHW (R211). -/
theorem execPushw_next {word : Word} :
    execPushw word s = .next t ↔ s.cfg.WellFormed ∧
      ((wordLegal s.cfg word = true ∧ PortOutcome .emitter s.srState s.fullS .overrun 0 (s.putWord word) s t) ∨
       (wordLegal s.cfg word = false ∧ t = s.respond (responseWord .illegal false 0))) := by
  rw [execPushw, elaborated_next, checkedOperand_next, port_outcome]

/-- POPB (R212). -/
theorem execPopb_next :
    execPopb s = .next t ↔ s.cfg.WellFormed ∧
      PortOutcome .emitter s.brState s.emptyB .empty ((s.brBuf.read s.nextReadB.toNat).setWidth 24) s.takeByte s t := by
  rw [execPopb, elaborated_next, port_outcome]

/-- PUSHB (R213). -/
theorem execPushb_next {byte : Byte} :
    execPushb byte s = .next t ↔ s.cfg.WellFormed ∧
      PortOutcome .receiver s.brState s.fullB .overrun 0 (s.putByte byte) s t := by
  rw [execPushb, elaborated_next, port_outcome]

/-- POPW (R214). -/
theorem execPopw_next :
    execPopw s = .next t ↔ s.cfg.WellFormed ∧
      PortOutcome .receiver s.srState s.emptyS .empty (s.srBuf.read s.nextReadS.toNat) s.takeWord s t := by
  rw [execPopw, elaborated_next, port_outcome]

/-- RDREG (R230). -/
theorem execRdreg_next {reg : BitVec 8} :
    execRdreg reg s = .next t ↔ s.cfg.WellFormed ∧
      ((regLegal reg = true ∧ t = s.respond (responseWord .ok false (regValue s (regMap.getD reg.toNat .config0)))) ∨
       (regLegal reg = false ∧ t = s.respond (responseWord .illegal false 0))) := by
  rw [execRdreg, elaborated_next, checkedOperand_next, raiseOk_next]

/-- PEEKW (R232). -/
theorem execPeekw_next {slot : BitVec 16} :
    execPeekw slot s = .next t ↔ s.cfg.WellFormed ∧
      ((slotLegal s.cfg.capS slot = true ∧ t = s.respond (responseWord .ok false (s.srBuf.read slot.toNat))) ∨
       (slotLegal s.cfg.capS slot = false ∧ t = s.respond (responseWord .illegal false 0))) := by
  rw [execPeekw, elaborated_next, checkedOperand_next, raiseOk_next]

/-- PEEKB (R233). -/
theorem execPeekb_next {slot : BitVec 16} :
    execPeekb slot s = .next t ↔ s.cfg.WellFormed ∧
      ((slotLegal s.cfg.capB slot = true ∧
         t = s.respond (responseWord .ok false ((s.brBuf.read slot.toNat).setWidth 24))) ∨
       (slotLegal s.cfg.capB slot = false ∧ t = s.respond (responseWord .illegal false 0))) := by
  rw [execPeekb, elaborated_next, checkedOperand_next, raiseOk_next]

/-- One step: the reset, no command, a command, or a word that names none (R90, R106, R280, R282). -/
theorem step_cases (h : step s = .next t) :
    (s.resetLine = true ∧ s.cfg.WellFormed ∧ t = State.powerOn s.cfg (s.powerOns + 1)) ∨
    (s.resetLine = false ∧ s.pending = [] ∧ s.cfg.WellFormed ∧ t = s.unanswered) ∨
    (s.resetLine = false ∧ ∃ w rest i, s.pending = w :: rest ∧ decode w = .command i ∧
      exec i (s.withPending rest) = .next t) ∨
    (s.resetLine = false ∧ ∃ w rest e, s.pending = w :: rest ∧ decode w = .illegal e ∧ s.cfg.WellFormed ∧
      t = (s.withPending rest).respond (responseWord .illegal false 0)) := by
  unfold step at h
  rcases take_cases (s := s) with ⟨hr, hk⟩ | ⟨hr, hp, hk⟩ | ⟨hr, w, rest, i, hp, hd, hk⟩ | ⟨hr, w, rest, e, hp, hd, hk⟩
  all_goals rw [hk] at h
  · exact .inl ⟨hr, takeReset_next.1 h⟩
  · exact .inr (.inl ⟨hr, hp, idle_next.1 h⟩)
  · exact .inr (.inr (.inl ⟨hr, w, rest, i, hp, hd, h⟩))
  · exact .inr (.inr (.inr ⟨hr, w, rest, e, hp, hd, illegalCommand_next.1 h⟩))

end CommandOutcomes

section StatusAndParameters

variable {s t : State}

/-- The command that led from `s` to `t` kept the parameters and answered a status of `statuses`. -/
structure EndsIn (statuses : List Status) (s t : State) : Prop where
  cfg : t.cfg = s.cfg
  response : ∃ st ∈ statuses, ∃ ready data, t.response = some (responseWord st ready data)

variable {statuses : List Status}

theorem EndsIn.respond {u : State} {st : Status} {ready : Bool} {data : BitVec 24} (hcfg : u.cfg = s.cfg)
    (hst : st ∈ statuses) : EndsIn statuses s (u.respond (responseWord st ready data)) :=
  ⟨hcfg, st, hst, ready, data, rfl⟩

/-- What a command's helper ends in, seen from the command's own state and among the command's statuses. -/
theorem EndsIn.of_helper {u : State} {fewer : List Status} (h : EndsIn fewer u t) (hcfg : u.cfg = s.cfg)
    (hsub : fewer ⊆ statuses) : EndsIn statuses s t :=
  let ⟨st, hst, hresp⟩ := h.response
  ⟨h.cfg.trans hcfg, st, hsub hst, hresp⟩

theorem startMarker_endsIn (h : startMarker s = .next t) : EndsIn [.ok, .overrun] s t := by
  rcases startMarker_next.1 h with ⟨-, -, rfl⟩ | ⟨-, -, rfl⟩ | ⟨-, rfl⟩ <;> exact .respond rfl (by simp)

theorem encoderUpdate_endsIn (h : encoderUpdate s = .next t) : EndsIn [.ok, .noNewData, .overrun] s t := by
  rcases encoderUpdate_next.1 h with ⟨-, rfl⟩ | ⟨-, -, rfl⟩ | ⟨-, -, rfl⟩
  · exact .respond rfl (by simp)
  · exact .respond (encodeAll_keeps _ s).cfg (by simp)
  · exact .respond (encodeAll_keeps _ s).cfg (by simp)

theorem synchronize_cfg : (synchronize s).cfg = s.cfg := by
  rcases synchronize_cases (s := s) with ⟨-, h⟩ | ⟨-, h⟩ <;> simp [h]

theorem extractWord_endsIn (h : extractWord s = .next t) : EndsIn [.ok, .noNewData, .overrun] s t := by
  have hcfg := (extractBits_keeps s.cfg.wordBits 0 s).cfg
  rcases extractWord_next.1 h with ⟨-, rfl⟩ | ⟨-, hpush⟩
  · exact .respond rfl (by simp)
  · rcases pushDecoded_next.1 hpush with ⟨-, rfl⟩ | ⟨-, rfl⟩ <;> exact .respond hcfg (by simp)

theorem decoderUpdate_endsIn (h : decoderUpdate s = .next t) :
    EndsIn [.ok, .syncWaiting, .noNewData, .overrun] s t := by
  rcases decoderUpdate_next.1 h with ⟨-, hword⟩ | ⟨-, rfl⟩
  · exact (extractWord_endsIn hword).of_helper synchronize_cfg (by simp)
  · exact .respond synchronize_cfg (by simp)

theorem PortOutcome.endsIn {mode : Mode} {ring : RingState} {barred : Bool} {bar : Status} {data : BitVec 24}
    {done : State} (h : PortOutcome mode ring barred bar data done s t) (hdone : done.cfg = s.cfg)
    (hsub : [.ok, bar, .notActive, .wrongMode] ⊆ statuses) : EndsIn statuses s t := by
  cases h with
  | wrongMode => exact .respond rfl (hsub (by simp))
  | notActive => exact .respond rfl (hsub (by simp))
  | barred => exact .respond rfl (hsub (by simp))
  | done => exact .respond hdone (hsub (by simp))

/-- The statuses each command may answer: the last column of R250's table by command, and OVERRUN for the marker of
START and RESTART (R159), which their cleared BitRing never gives in a well-formed configuration (R133). -/
def statusesOf : Instr → List Status
  | .start => [.ok, .overrun, .configError, .stateError]
  | .stop => [.ok]
  | .restart => [.ok, .overrun, .notStarted]
  | .update => [.ok, .syncWaiting, .noNewData, .overrun, .notActive]
  | .pushw _ => [.ok, .overrun, .notActive, .wrongMode, .illegal]
  | .popw => [.ok, .empty, .notActive, .wrongMode]
  | .pushb _ => [.ok, .overrun, .notActive, .wrongMode]
  | .popb => [.ok, .empty, .notActive, .wrongMode]
  | .rdreg _ => [.ok, .illegal]
  | .peekw _ => [.ok, .illegal]
  | .peekb _ => [.ok, .illegal]

/-- Every command that goes on keeps the parameters and answers one of its statuses. -/
theorem exec_endsIn {i : Instr} (h : exec i s = .next t) : EndsIn (statusesOf i) s t := by
  cases i with
  | start =>
    rcases (execStart_next.1 h).2 with ⟨-, rfl⟩ | ⟨-, -, rfl⟩ | ⟨-, -, hmark⟩
    · exact .respond rfl (by simp [statusesOf])
    · exact .respond rfl (by simp [statusesOf])
    · exact (startMarker_endsIn hmark).of_helper rfl (by simp [statusesOf])
  | stop => rcases (execStop_next.1 h).2 with ⟨-, rfl⟩ | ⟨-, rfl⟩ <;> exact .respond rfl (by simp [statusesOf])
  | restart =>
    rcases (execRestart_next.1 h).2 with ⟨-, hmark⟩ | ⟨-, rfl⟩
    · exact (startMarker_endsIn hmark).of_helper rfl (by simp [statusesOf])
    · exact .respond rfl (by simp [statusesOf])
  | update =>
    rcases (execUpdate_next.1 h).2 with ⟨-, rfl⟩ | ⟨-, -, -, henc⟩ | ⟨-, -, -, hdec⟩
    · exact .respond rfl (by simp [statusesOf])
    · exact (encoderUpdate_endsIn henc).of_helper rfl (by simp [statusesOf])
    · exact (decoderUpdate_endsIn hdec).of_helper rfl (by simp [statusesOf])
  | pushw word =>
    rcases (execPushw_next.1 h).2 with ⟨-, hport⟩ | ⟨-, rfl⟩
    · exact hport.endsIn rfl (by simp [statusesOf])
    · exact .respond rfl (by simp [statusesOf])
  | popw => exact (execPopw_next.1 h).2.endsIn rfl (by simp [statusesOf])
  | pushb byte => exact (execPushb_next.1 h).2.endsIn rfl (by simp [statusesOf])
  | popb => exact (execPopb_next.1 h).2.endsIn rfl (by simp [statusesOf])
  | rdreg reg => rcases (execRdreg_next.1 h).2 with ⟨-, rfl⟩ | ⟨-, rfl⟩ <;> exact .respond rfl (by simp [statusesOf])
  | peekw slot => rcases (execPeekw_next.1 h).2 with ⟨-, rfl⟩ | ⟨-, rfl⟩ <;> exact .respond rfl (by simp [statusesOf])
  | peekb slot => rcases (execPeekb_next.1 h).2 with ⟨-, rfl⟩ | ⟨-, rfl⟩ <;> exact .respond rfl (by simp [statusesOf])

theorem exec_keeps_cfg {i : Instr} (h : exec i s = .next t) : t.cfg = s.cfg := (exec_endsIn h).cfg

end StatusAndParameters

/-- Settles O14: reset keeps the parameters, no command changes nothing, and every command keeps them. -/
theorem stepKeepsParameters : Obligations.StepKeepsParameters := by
  intro s t h
  rcases step_cases h with ⟨-, -, rfl⟩ | ⟨-, -, -, rfl⟩ | ⟨-, w, rest, i, -, -, hexec⟩ | ⟨-, w, rest, e, -, -, -, rfl⟩
  · rfl
  · rfl
  · simpa using exec_keeps_cfg hexec
  · rfl

section ModeOfACommand

variable {s t : State}

/-- The response of `s` carries status `st`. -/
def State.HasStatus (s : State) (st : Status) : Prop := ∃ r, s.response = some r ∧ statusField r = statusCode st

/-- One response carries one status. -/
theorem hasStatus_iff_of_response {st st' : Status} {ready : Bool} {data : BitVec 24}
    (h : t.response = some (responseWord st' ready data)) : t.HasStatus st ↔ st' = st := by
  simp only [State.HasStatus, h, Option.some.injEq, exists_eq_left', statusField_responseWord]
  exact ⟨statusCode_injective, congrArg statusCode⟩

@[simp] theorem hasStatus_respond {st st' : Status} {ready : Bool} {data : BitVec 24} :
    (s.respond (responseWord st' ready data)).HasStatus st ↔ st' = st :=
  hasStatus_iff_of_response rfl

theorem EndsIn.not_hasStatus {statuses : List Status} {st : Status} (h : EndsIn statuses s t) (hst : st ∉ statuses) :
    ¬ t.HasStatus st := by
  obtain ⟨st', hmem, ready, data, hresp⟩ := h.response
  rw [hasStatus_iff_of_response hresp]
  rintro rfl
  exact hst hmem

/-- A port answers WRONG_MODE exactly in a build of the other mode (R210). -/
theorem PortOutcome.wrongMode_iff {mode : Mode} {ring : RingState} {barred : Bool} {bar : Status} {data : BitVec 24}
    {done : State} (h : PortOutcome mode ring barred bar data done s t) (hbar : bar ≠ .wrongMode) :
    t.HasStatus .wrongMode ↔ s.cfg.mode ≠ mode := by
  cases h with
  | wrongMode hm => simp [hm]
  | notActive hm => simp [hm]
  | barred hm => simp [hm, hbar]
  | done hm => simp [hm]

/-- The mode a ring port belongs to (R210); every other command belongs to both. -/
def portModeOf : Instr → Option Mode
  | .start | .stop | .restart | .update | .rdreg _ | .peekw _ | .peekb _ => none
  | .pushw _ | .popb => some .emitter
  | .pushb _ | .popw => some .receiver

/-- A legal command answers WRONG_MODE exactly where it is a port of the other mode (R210). -/
theorem exec_wrongMode_iff {i : Instr} (hlegal : i.wellFormed s.cfg = true) (h : exec i s = .next t) :
    t.HasStatus .wrongMode ↔ ∃ m, portModeOf i = some m ∧ s.cfg.mode ≠ m := by
  have hstatus := exec_endsIn h
  cases i with
  | pushw word =>
    rcases (execPushw_next.1 h).2 with ⟨-, hport⟩ | ⟨hillegal, -⟩
    · simpa [portModeOf] using hport.wrongMode_iff (by decide)
    · exact absurd (hillegal.symm.trans hlegal) (by decide)
  | popw => simpa [portModeOf] using (execPopw_next.1 h).2.wrongMode_iff (by decide)
  | pushb byte => simpa [portModeOf] using (execPushb_next.1 h).2.wrongMode_iff (by decide)
  | popb => simpa [portModeOf] using (execPopb_next.1 h).2.wrongMode_iff (by decide)
  | start | stop | restart | update | rdreg _ | peekw _ | peekb _ =>
    simpa [portModeOf] using hstatus.not_hasStatus (by simp [statusesOf])

/-- A command that R11 gives to one agent, in one mode, has no agent in the other. -/
theorem no_agent_issues_of_owner {m p : Mode} {i : Instr} (owner : Agent) (howner : owner.issues m i = decide (m = p))
    (hothers : ∀ a, a ≠ owner → a.issues m i = false) : (∀ a : Agent, a.issues m i = false) ↔ m ≠ p := by
  constructor
  · intro h
    exact of_decide_eq_false (howner.symm.trans (h owner))
  · intro hm a
    by_cases ha : a = owner
    · rw [ha, howner]; exact decide_eq_false hm
    · exact hothers a ha

/-- R11's table of agents leaves out exactly the ports of the other mode. -/
theorem no_agent_issues_iff (m : Mode) (i : Instr) :
    (∀ a : Agent, a.issues m i = false) ↔ ∃ p, portModeOf i = some p ∧ m ≠ p := by
  cases i with
  | start | stop | restart | update | rdreg _ | peekw _ | peekb _ =>
    exact ⟨fun h => absurd (h .host) Bool.true_eq_false.mp, nofun⟩
  | pushw word =>
    simpa [portModeOf] using no_agent_issues_of_owner (i := .pushw word) .frontEnd rfl
      fun a ha => by cases a with | frontEnd => exact absurd rfl ha | _ => rfl
  | popb =>
    simpa [portModeOf] using no_agent_issues_of_owner (i := .popb) .transportTx rfl
      fun a ha => by cases a with | transportTx => exact absurd rfl ha | _ => rfl
  | pushb byte =>
    simpa [portModeOf] using no_agent_issues_of_owner (i := .pushb byte) .transportRx rfl
      fun a ha => by cases a with | transportRx => exact absurd rfl ha | _ => rfl
  | popw =>
    simpa [portModeOf] using no_agent_issues_of_owner (i := .popw) .analogOut rfl
      fun a ha => by cases a with | analogOut => exact absurd rfl ha | _ => rfl

end ModeOfACommand

/-- Settles O58: both sides say that the command is a port of the mode the build does not have. -/
theorem wrongModeExactlyWhereNoAgentIssues : Obligations.WrongModeExactlyWhereNoAgentIssues := by
  intro s t i hlegal h
  exact (exec_wrongMode_iff hlegal h).trans (no_agent_issues_iff s.cfg.mode i).symm

/-! ### `FLIP_INDEX` tables (00_scope.md R6, 41_encoder.md R158) -/

/-- The table of a function: entry `n` is its value at the `(done, k, r)` whose entry `flipEntry` looks for at `n`. -/
def flipTable (f : Bool → Nat → Nat → BitVec 3) : List (BitVec 3) :=
  (List.range 384).map fun n => f (decide (8 ≤ n / 24)) (n / 24 % 8 + 1) (n % 24)

theorem flipTable_wellFormed (f : Bool → Nat → Nat → BitVec 3) : (FlipIndex.table (flipTable f)).wellFormed = true := by
  simp [FlipIndex.wellFormed, flipTable]

theorem flipTable_getD (f : Bool → Nat → Nat → BitVec 3) {n : Nat} (hn : n < 384) :
    (flipTable f).getD n 0 = f (decide (8 ≤ n / 24)) (n / 24 % 8 + 1) (n % 24) := by
  simp [flipTable, List.getD_eq_getElem?_getD, hn]

/-- Reading a function's table gives the function back, on the arguments R158 allows. -/
theorem flipEntry_flipTable (f : Bool → Nat → Nat → BitVec 3) (done : Bool) {k r : Nat} (hk₁ : 1 ≤ k) (hk₈ : k ≤ 8)
    (hr : r < 24) : flipEntry (flipTable f) done k r = f done k r := by
  have hrow (row : Nat) : (row * 24 + r) / 24 = row ∧ (row * 24 + r) % 24 = r := by omega
  have hk : (k - 1) % 8 + 1 = k := by omega
  unfold flipEntry
  cases done with
  | false =>
    rw [flipTable_getD f (by simp; omega), (hrow _).1, (hrow _).2]
    simp [hk, show ¬ 8 ≤ k - 1 by omega]
  | true =>
    rw [flipTable_getD f (by simp; omega), (hrow _).1, (hrow _).2]
    simp [hk]

/-- Settles O42: the function's own table is legal and gives it back. -/
theorem flipTableRealizesAnyFunction : Obligations.FlipTableRealizesAnyFunction := by
  intro c f
  exact ⟨flipTable f, flipTable_wellFormed f, fun done _ _ hk₁ hk₈ hr => flipEntry_flipTable f done hk₁ hk₈ hr⟩

end Sys2Proof.Machine

/-! ## The invariant (10_state.md R30, R47)

Sound states by their parts, what each named update of the state needs to keep them, and what each command keeps. -/

namespace Sys2Proof.Machine

section Cursors

/-- A cursor moved on stays among the slots of a ring of legal capacity (R6, R73). -/
theorem inc_lt_of_bounds (i : Cursor) {cap : Nat} (h : 2 ≤ cap ∧ cap ≤ 65535) : (inc i cap).toNat < cap :=
  inc_lt i (by omega) (by omega)

/-- Slot 0 is a slot of a ring of legal capacity. -/
theorem zero_lt_of_bounds {cap : Nat} (h : 2 ≤ cap ∧ cap ≤ 65535) : (0 : Cursor).toNat < cap := by
  simpa using show 0 < cap by omega

/-- Reading one item of a ring that is not empty lowers its depth by one (R74). -/
theorem depth_inc_read {wr rd : Cursor} {cap : Nat} (hw : wr.toNat < cap) (hr : rd.toNat < cap) (hcap : cap ≤ 65536)
    (hne : wr ≠ rd) : depth wr (inc rd cap) cap + 1 = depth wr rd cap := by
  have hlt : (inc rd cap).toNat < cap := inc_lt rd (by omega) hcap
  have hne' : wr.toNat ≠ rd.toNat := fun h => hne (BitVec.eq_of_toNat_eq h)
  rw [depth_eq wr _ hw hlt, depth_eq wr rd hw hr]
  rcases toNat_inc_cases rd hr hcap with ⟨-, hinc⟩ | ⟨hlast, hinc⟩ <;> rw [hinc] <;> split <;> split <;> omega

variable {s : State}

theorem fullS_eq_false_iff : s.fullS = false ↔ s.nextWriteS ≠ s.srRd := by simp [State.fullS, State.nextWriteS]
theorem fullB_eq_false_iff : s.fullB = false ↔ s.nextWriteB ≠ s.brRd := by simp [State.fullB, State.nextWriteB]
theorem emptyS_eq_false_iff : s.emptyS = false ↔ s.srWr ≠ s.srRd := by simp [State.emptyS]
theorem emptyB_eq_false_iff : s.emptyB = false ↔ s.brWr ≠ s.brRd := by simp [State.emptyB]

end Cursors

section Parts

variable {s : State}

/-- The parts of `State.Sound`, the cursors and the buffers one by one, so that an update names the parts it
touches and keeps the rest. -/
structure SoundParts (s : State) : Prop where
  wellFormed : s.cfg.WellFormed
  srWr_lt : s.srWr.toNat < s.cfg.capS
  srRd_lt : s.srRd.toNat < s.cfg.capS
  srBits_lt : s.srBits.toNat < s.cfg.wordBits
  brWr_lt : s.brWr.toNat < s.cfg.capB
  brRd_lt : s.brRd.toNat < s.cfg.capB
  srCanonical : s.srBuf.wf = true
  brCanonical : s.brBuf.wf = true
  words : s.WordsLegal
  filled : s.StartedSound
  rings : s.RingStatesSound
  unstarted : s.UnstartedSound
  drained : s.depthS = 0 → s.srBits = 0
  emitter : s.EmitterSound
  receiver : s.ReceiverSound

theorem sound_iff_parts : s.Sound ↔ SoundParts s := by
  constructor
  · rintro ⟨wf, ⟨hsw, hsr, hsb, hbw, hbr⟩, ⟨hsc, hbc⟩, words, filled, rings, unstarted, drained, emitter, receiver⟩
    exact ⟨wf, hsw, hsr, hsb, hbw, hbr, hsc, hbc, words, filled, rings, unstarted, drained, emitter, receiver⟩
  · rintro ⟨wf, hsw, hsr, hsb, hbw, hbr, hsc, hbc, words, filled, rings, unstarted, drained, emitter, receiver⟩
    exact ⟨wf, ⟨hsw, hsr, hsb, hbw, hbr⟩, ⟨hsc, hbc⟩, words, filled, rings, unstarted, drained, emitter, receiver⟩

theorem unstartedSound_of_started (h : s.started = true) : s.UnstartedSound :=
  fun hn => absurd (h.symm.trans hn) (by decide)

theorem emitterSound_of_receiver (h : s.cfg.mode = .receiver) : s.EmitterSound :=
  fun hm => absurd (h.symm.trans hm) (by decide)

theorem receiverSound_of_emitter (h : s.cfg.mode = .emitter) : s.ReceiverSound :=
  fun hm => absurd (h.symm.trans hm) (by decide)

/-- The SampleRing holds Words of the build where the written one is (R30). -/
theorem wordsLegal_putWord (h : s.WordsLegal) {w : Word} (hw : w.toNat < 2 ^ s.cfg.wordBits) :
    (s.putWord w).WordsLegal := by
  obtain ⟨hcells, hfill⟩ := h
  refine ⟨?_, by simpa using hfill⟩
  simp only [List.all_eq_true, decide_eq_true_eq] at hcells ⊢
  intro c hc
  rcases Memory.mem_write hc with rfl | hlisted
  · exact hw
  · exact hcells c hlisted

namespace SoundParts

theorem started (h : SoundParts s) (hs : s.srState = .active) : s.started = true := by
  obtain ⟨-, -, hstarted⟩ := h.rings
  exact hstarted hs

theorem capS_bounds (h : SoundParts s) : 2 ≤ s.cfg.capS ∧ s.cfg.capS ≤ 65535 := by
  obtain ⟨-, -, hcap, -, -⟩ := h.wellFormed
  exact hcap

theorem capB_bounds (h : SoundParts s) : 2 ≤ s.cfg.capB ∧ s.cfg.capB ≤ 65535 := by
  obtain ⟨-, -, -, hcap, -⟩ := h.wellFormed
  exact hcap

theorem nextWriteS_lt (h : SoundParts s) : s.nextWriteS.toNat < s.cfg.capS := inc_lt_of_bounds _ h.capS_bounds
theorem nextReadS_lt (h : SoundParts s) : s.nextReadS.toNat < s.cfg.capS := inc_lt_of_bounds _ h.capS_bounds
theorem nextWriteB_lt (h : SoundParts s) : s.nextWriteB.toNat < s.cfg.capB := inc_lt_of_bounds _ h.capB_bounds
theorem nextReadB_lt (h : SoundParts s) : s.nextReadB.toNat < s.cfg.capB := inc_lt_of_bounds _ h.capB_bounds

/-! ### The model's own fields do not matter -/

theorem respond (h : SoundParts s) (r : ResponseWord) : SoundParts (s.respond r) := { h with }
theorem unanswered (h : SoundParts s) : SoundParts s.unanswered := { h with }
theorem withPending (h : SoundParts s) (rest : List CommandWord) : SoundParts (s.withPending rest) := { h with }
theorem present (h : SoundParts s) (w : CommandWord) : SoundParts (s.present w) := { h with }
theorem assertReset (h : SoundParts s) : SoundParts s.assertReset := { h with }

/-! ### Updates of a session -/

theorem putWord (h : SoundParts s) (hstarted : s.started = true) (hroom : s.fullS = false) {w : Word}
    (hw : w.toNat < 2 ^ s.cfg.wordBits) : SoundParts (s.putWord w) := { h with
  srWr_lt := h.nextWriteS_lt
  srCanonical := Memory.wf_write _ _ h.srCanonical
  words := wordsLegal_putWord h.words hw
  filled := fun hs => by simpa using h.filled hs
  unstarted := unstartedSound_of_started hstarted
  drained := fun hd =>
    absurd ((depth_eq_zero_iff _ _ h.nextWriteS_lt h.srRd_lt).1 hd) (fullS_eq_false_iff.1 hroom) }

theorem putByte (h : SoundParts s) (hstarted : s.started = true) (hroom : s.fullB = false) (b : Byte) :
    SoundParts (s.putByte b) := { h with
  brWr_lt := h.nextWriteB_lt
  brCanonical := Memory.wf_write _ _ h.brCanonical
  filled := fun hs => by simpa using h.filled hs
  unstarted := unstartedSound_of_started hstarted
  receiver := fun hm => by
    obtain ⟨hbits, hacc, -, hsync⟩ := h.receiver hm
    have hunread : (s.putByte b).depthB ≠ 0 := fun hd =>
      fullB_eq_false_iff.1 hroom ((depth_eq_zero_iff _ _ h.nextWriteB_lt h.brRd_lt).1 hd)
    exact ⟨hbits, hacc, fun hd => absurd hd hunread, hsync⟩ }

theorem takeWord (h : SoundParts s) (hstarted : s.started = true) (hm : s.cfg.mode = .receiver) :
    SoundParts s.takeWord := { h with
  srRd_lt := h.nextReadS_lt
  unstarted := unstartedSound_of_started hstarted
  drained := fun _ => by
    obtain ⟨hbits, -⟩ := h.receiver hm
    exact hbits }

theorem takeByte (h : SoundParts s) (hstarted : s.started = true) (hm : s.cfg.mode = .emitter) :
    SoundParts s.takeByte := { h with
  brRd_lt := h.nextReadB_lt
  unstarted := unstartedSound_of_started hstarted
  receiver := receiverSound_of_emitter hm }

/-- `BR.BSS` is bounded in Emitter mode alone (R44). -/
theorem withCount (h : SoundParts s) (hstarted : s.started = true) {v : BitVec 16}
    (hv : s.cfg.mode = .emitter → v.toNat + 2 ≤ s.cfg.syncPeriod) : SoundParts (s.withCount v) := { h with
  unstarted := unstartedSound_of_started hstarted
  emitter := fun hm => by
    obtain ⟨hsync, -, hheld⟩ := h.emitter hm
    exact ⟨hsync, hv hm, hheld⟩ }

theorem withCount_zero (h : SoundParts s) (hstarted : s.started = true) : SoundParts (s.withCount 0) :=
  h.withCount hstarted fun _ => by
    obtain ⟨-, ⟨hperiod, -⟩, -⟩ := h.wellFormed
    simpa using hperiod

/-! ### START, STOP and RESTART -/

theorem deactivate (h : SoundParts s) : SoundParts s.deactivate := { h with
  rings := ⟨rfl, RingState.noConfusion, RingState.noConfusion⟩
  unstarted := fun hn => by
    obtain ⟨-, hrest⟩ := h.unstarted hn
    exact ⟨rfl, hrest⟩
  receiver := fun hm => by
    obtain ⟨hbits, hacc, hpartial, -⟩ := h.receiver hm
    exact ⟨hbits, hacc, hpartial, RingState.noConfusion⟩ }

/-- Outside a session a Receiver may be unsynchronized with a byte partly read (log 10). -/
theorem clearSync (h : SoundParts s) (hidle : s.srState ≠ .active) : SoundParts s.clearSync := { h with
  unstarted := fun hn => by
    obtain ⟨hs, hsw, hsr, hsb, hbw, hbr, hbit, hbss, -, hacc⟩ := h.unstarted hn
    exact ⟨hs, hsw, hsr, hsb, hbw, hbr, hbit, hbss, rfl, hacc⟩
  emitter := fun hm => by
    obtain ⟨-, hrest⟩ := h.emitter hm
    exact ⟨rfl, hrest⟩
  receiver := fun hm => by
    obtain ⟨hbits, hacc, hpartial, -⟩ := h.receiver hm
    exact ⟨hbits, hacc, hpartial, fun hs => absurd hs hidle⟩ }

theorem markStarted_zeroFill (h : SoundParts s) (hsize : 1 + wordBytes s.cfg ≤ s.cfg.capB) :
    SoundParts s.zeroFill.markStarted := { h with
  srCanonical := Memory.wf_zeroed
  brCanonical := Memory.wf_zeroed
  words := ⟨rfl, .inl rfl⟩
  filled := fun _ => ⟨rfl, rfl, hsize⟩
  rings := by
    obtain ⟨hsame, hbusy, -⟩ := h.rings
    exact ⟨hsame, hbusy, fun _ => rfl⟩
  unstarted := unstartedSound_of_started rfl }

theorem activate_clearCursors (h : SoundParts s) (hstarted : s.started = true) :
    SoundParts s.clearCursors.activate := by
  obtain ⟨⟨hbits, -⟩, ⟨hperiod, -⟩, hcapS, hcapB, -⟩ := h.wellFormed
  exact { h with
    srWr_lt := zero_lt_of_bounds hcapS
    srRd_lt := zero_lt_of_bounds hcapS
    srBits_lt := hbits
    brWr_lt := zero_lt_of_bounds hcapB
    brRd_lt := zero_lt_of_bounds hcapB
    rings := ⟨rfl, RingState.noConfusion, fun _ => hstarted⟩
    unstarted := unstartedSound_of_started hstarted
    drained := fun _ => rfl
    emitter := fun _ => ⟨rfl, by simpa using hperiod, by simp⟩
    receiver := fun _ => ⟨rfl, rfl, fun _ => rfl, fun _ _ => rfl⟩ }

/-! ### The Decoder's read position -/

theorem discardBytes (h : SoundParts s) (hstarted : s.started = true) (hm : s.cfg.mode = .receiver) :
    SoundParts s.discardBytes := { h with
  brRd_lt := h.brWr_lt
  unstarted := unstartedSound_of_started hstarted
  emitter := emitterSound_of_receiver hm
  receiver := fun _ => by
    obtain ⟨hbits, hacc, -⟩ := h.receiver hm
    exact ⟨hbits, hacc, fun _ => rfl, fun _ _ => rfl⟩ }

theorem markSynchronized (h : SoundParts s) (hstarted : s.started = true) (hm : s.cfg.mode = .receiver) :
    SoundParts s.markSynchronized := { h with
  unstarted := unstartedSound_of_started hstarted
  emitter := emitterSound_of_receiver hm
  receiver := fun _ => by
    obtain ⟨hbits, hacc, hpartial, -⟩ := h.receiver hm
    exact ⟨hbits, hacc, hpartial, fun _ => nofun⟩ }

/-- A bit within the byte being read, which is unread. -/
theorem readWithinByte (h : SoundParts s) (hstarted : s.started = true) (hm : s.cfg.mode = .receiver)
    (hsync : s.brSync = true) (hunread : s.depthB ≠ 0) (v : BitVec 3) : SoundParts (s.withBit v) := { h with
  unstarted := unstartedSound_of_started hstarted
  emitter := emitterSound_of_receiver hm
  receiver := fun _ => by
    obtain ⟨hbits, hacc, -⟩ := h.receiver hm
    exact ⟨hbits, hacc, fun hd => absurd hd hunread, fun _ hn => absurd (hsync.symm.trans hn) (by decide)⟩ }

/-- The last bit of the byte being read. -/
theorem readToNextByte (h : SoundParts s) (hstarted : s.started = true) (hm : s.cfg.mode = .receiver) :
    SoundParts (s.takeByte.withBit 0) := { h with
  brRd_lt := h.nextReadB_lt
  unstarted := unstartedSound_of_started hstarted
  emitter := emitterSound_of_receiver hm
  receiver := fun _ => by
    obtain ⟨hbits, hacc, -⟩ := h.receiver hm
    exact ⟨hbits, hacc, fun _ => rfl, fun _ _ => rfl⟩ }

/-! ### The Encoder's place in its Word and in its byte -/

theorem withBits (h : SoundParts s) (hstarted : s.started = true) (hm : s.cfg.mode = .emitter)
    (hunread : s.emptyS = false) {v : BitVec 5} (hv : v.toNat < s.cfg.wordBits) : SoundParts (s.withBits v) := { h with
  srBits_lt := hv
  unstarted := unstartedSound_of_started hstarted
  drained := fun hd => absurd ((depth_eq_zero_iff _ _ h.srWr_lt h.srRd_lt).1 hd) (emptyS_eq_false_iff.1 hunread)
  receiver := receiverSound_of_emitter hm }

theorem consumeWord (h : SoundParts s) (hstarted : s.started = true) {slot : Cursor}
    (hslot : slot.toNat < s.cfg.capS) : SoundParts (s.consumeWord slot) := { h with
  srRd_lt := hslot
  srBits_lt := Nat.lt_of_le_of_lt (Nat.zero_le _) h.srBits_lt
  unstarted := unstartedSound_of_started hstarted
  drained := fun _ => rfl
  receiver := fun hm => by
    obtain ⟨-, hrest⟩ := h.receiver hm
    exact ⟨rfl, hrest⟩ }

/-- `ENC.ACC` and `BR.BIT` move together: the bits below the place `BR.BIT` names are 0 (R45). -/
theorem holdBits (h : SoundParts s) (hstarted : s.started = true) (hm : s.cfg.mode = .emitter) {acc : Byte}
    {bit : BitVec 3} (hacc : acc.toNat % 2 ^ (8 - bit.toNat) = 0) : SoundParts ((s.withAcc acc).withBit bit) := { h with
  unstarted := unstartedSound_of_started hstarted
  emitter := fun _ => by
    obtain ⟨hsync, hcount, -⟩ := h.emitter hm
    exact ⟨hsync, hcount, hacc⟩
  receiver := receiverSound_of_emitter hm }

end SoundParts

end Parts

/-! ### The Encoder keeps the parts -/

section EncoderParts

variable {s : State}

/-- What a push into the BitRing and its count leave alone beside `EncoderKeeps` (R156). -/
structure PushKeeps (s t : State) : Prop where
  srRd : t.srRd = s.srRd
  srBits : t.srBits = s.srBits
  brBit : t.brBit = s.brBit

theorem PushKeeps.trans {s t u : State} (h : PushKeeps s t) (k : PushKeeps t u) : PushKeeps s u :=
  ⟨k.srRd.trans h.srRd, k.srBits.trans h.srBits, k.brBit.trans h.brBit⟩

theorem pushOrDrop_pushKeeps (d : Byte) (s : State) : PushKeeps s (pushOrDrop d s).1 := by
  rcases pushOrDrop_cases d s with ⟨-, h⟩ | ⟨-, h⟩ <;> rw [h] <;> exact ⟨rfl, rfl, rfl⟩

theorem countByte_pushKeeps (s : State) : PushKeeps s (countByte s).1 := by
  rcases countByte_cases s with ⟨-, h⟩ | ⟨-, h⟩ <;> rw [h]
  · exact PushKeeps.trans (t := s.withCount 0) ⟨rfl, rfl, rfl⟩ (pushOrDrop_pushKeeps _ _)
  · exact ⟨rfl, rfl, rfl⟩

theorem pushData_pushKeeps (d : Byte) (s : State) : PushKeeps s (pushData d s).1 :=
  (pushOrDrop_pushKeeps d s).trans (countByte_pushKeeps _)

theorem completeByte_pushKeeps (done : Bool) (k r : Nat) (s : State) : PushKeeps s (completeByte done k r s).1 :=
  PushKeeps.trans (t := s.withAcc 0) ⟨rfl, rfl, rfl⟩ (pushData_pushKeeps _ _)

theorem pushOrDrop_parts (h : SoundParts s) (hstarted : s.started = true) (d : Byte) :
    SoundParts (pushOrDrop d s).1 := by
  rcases pushOrDrop_cases d s with ⟨-, e⟩ | ⟨hroom, e⟩ <;> rw [e]
  · exact h
  · exact h.putByte hstarted hroom d

/-- The count goes back to 0 before it could reach the period less one (R44, R156). -/
theorem countByte_parts (h : SoundParts s) (hstarted : s.started = true) : SoundParts (countByte s).1 := by
  rcases countByte_cases s with ⟨-, e⟩ | ⟨hbelow, e⟩ <;> rw [e]
  · exact pushOrDrop_parts (h.withCount_zero hstarted) hstarted _
  · refine h.withCount hstarted fun _ => ?_
    have hsmall : (BitVec.ofNat 16 (s.brBss.toNat + 1)).toNat ≤ s.brBss.toNat + 1 := by
      rw [BitVec.toNat_ofNat]; exact Nat.mod_le _ _
    omega

theorem pushData_parts (h : SoundParts s) (hstarted : s.started = true) (d : Byte) : SoundParts (pushData d s).1 :=
  countByte_parts (pushOrDrop_parts h hstarted d) ((pushOrDrop_keeps d s).started.trans hstarted)

/-- `setBit` sets one bit and leaves the others (R153). -/
theorem getLsbD_setBit (acc : Byte) {i : Nat} (hi : i < 8) (b : Bool) (j : Nat) :
    (setBit acc i b).getLsbD j = if j = i then b else acc.getLsbD j := by
  have hone : ((1 : Byte) <<< i).getLsbD j = decide (j = i) := by
    show (1#8 <<< i).getLsbD j = _
    rw [← BitVec.twoPow_eq, BitVec.getLsbD_twoPow]
    simp [hi, eq_comm]
  unfold setBit
  cases b with
  | false =>
    rw [if_neg Bool.false_ne_true, BitVec.getLsbD_and, BitVec.getLsbD_not, hone]
    by_cases hj : j = i
    · simp [hj]
    · simpa [hj] using BitVec.lt_of_getLsbD (x := acc)
  | true =>
    rw [if_pos rfl, BitVec.getLsbD_or, hone]
    by_cases hj : j = i <;> simp [hj]

/-- A value has its low `n` bits 0. -/
theorem mod_two_pow_eq_zero_iff {w : Nat} (v : BitVec w) (n : Nat) :
    v.toNat % 2 ^ n = 0 ↔ ∀ j < n, v.getLsbD j = false := by
  constructor
  · intro h j hj
    have hbit := congrArg (Nat.testBit · j) h
    simpa [Nat.testBit_mod_two_pow, hj, BitVec.testBit_toNat] using hbit
  · intro h
    apply Nat.eq_of_testBit_eq
    intro j
    rw [Nat.testBit_mod_two_pow, Nat.zero_testBit]
    by_cases hj : j < n
    · simpa [hj, BitVec.testBit_toNat] using h j hj
    · simp [hj]

/-- A bit put at the place `BR.BIT` names leaves the bits below it 0 (R45, R153). -/
theorem setBit_held {acc : Byte} {bit : Nat} (hbit : bit < 8) (h : acc.toNat % 2 ^ (8 - bit) = 0) (b : Bool) :
    (setBit acc (7 - bit) b).toNat % 2 ^ (8 - (bit + 1)) = 0 := by
  rw [mod_two_pow_eq_zero_iff] at h ⊢
  intro j hj
  rw [getLsbD_setBit acc (by omega), if_neg (by omega)]
  exact h j (by omega)

/-- `placeBit` moves on in the Word, soundly, and puts one bit into `ENC.ACC`. -/
theorem placeBit_parts (h : SoundParts s) (hstarted : s.started = true) (hm : s.cfg.mode = .emitter)
    (hunread : s.emptyS = false) {slot : Cursor} (hslot : slot.toNat < s.cfg.capS) (w : Word) :
    ∃ u b, SoundParts u ∧ EncoderKeeps s u ∧
      (placeBit slot w s).1 = u.withAcc (setBit s.encAcc (7 - s.brBit.toNat) b) := by
  rcases placeBit_cases slot w s with ⟨-, e⟩ | ⟨hmore, e⟩
  · exact ⟨s.consumeWord slot, _, h.consumeWord hstarted hslot,
      ⟨rfl, rfl, rfl, rfl, rfl, rfl, rfl, rfl, rfl, rfl, rfl, rfl⟩, congrArg Prod.fst e⟩
  · have hbits : (BitVec.ofNat 5 (s.srBits.toNat + 1)).toNat < s.cfg.wordBits := by
      have hlt := h.srBits_lt
      have hle : (BitVec.ofNat 5 (s.srBits.toNat + 1)).toNat ≤ s.srBits.toNat + 1 := by
        rw [BitVec.toNat_ofNat]; exact Nat.mod_le _ _
      omega
    exact ⟨s.withBits _, _, h.withBits hstarted hm hunread hbits,
      ⟨rfl, rfl, rfl, rfl, rfl, rfl, rfl, rfl, rfl, rfl, rfl, rfl⟩, congrArg Prod.fst e⟩

theorem packBit_parts (h : SoundParts s) (hstarted : s.started = true) (hm : s.cfg.mode = .emitter)
    (hunread : s.emptyS = false) {slot : Cursor} (hslot : slot.toNat < s.cfg.capS) (w : Word) (k : Nat) :
    SoundParts (packBit slot w k s).state := by
  obtain ⟨u, b, hu, hkeeps, hplace⟩ := placeBit_parts h hstarted hm hunread hslot w
  have hustarted : u.started = true := hkeeps.started.trans hstarted
  have hum : u.cfg.mode = .emitter := by rw [hkeeps.cfg, hm]
  rcases packBit_cases slot w k s with ⟨-, e⟩ | ⟨hbit, e⟩ <;> rw [e]
  · have hcleared : SoundParts ((u.withAcc 0).withBit 0) := hu.holdBits hustarted hum rfl
    rw [hplace]
    exact pushData_parts hcleared hustarted _
  · obtain ⟨-, -, hheld⟩ := h.emitter hm
    have hnext : (BitVec.ofNat 3 (s.brBit.toNat + 1)).toNat = s.brBit.toNat + 1 := by
      rw [BitVec.toNat_ofNat]; exact Nat.mod_eq_of_lt (by omega)
    show SoundParts ((placeBit slot w s).1.withBit _)
    rw [hplace]
    exact hu.holdBits hustarted hum (by rw [hnext]; exact setBit_held (by omega) hheld b)

/-- Until its last bit is packed the Word stays unread (R154). -/
theorem packBit_unfinished {slot : Cursor} {w : Word} {k : Nat} (hdone : (packBit slot w k s).done = false) :
    (packBit slot w k s).state.srRd = s.srRd := by
  have hplace : (placeBit slot w s).2 = false := by
    rcases packBit_cases slot w k s with ⟨-, e⟩ | ⟨-, e⟩ <;> rwa [e] at hdone
  have hrd : (placeBit slot w s).1.srRd = s.srRd := by
    rcases placeBit_cases slot w s with ⟨-, e⟩ | ⟨-, e⟩ <;> rw [e] at hplace ⊢
    · exact absurd hplace Bool.true_eq_false.mp
    · rfl
  rcases packBit_cases slot w k s with ⟨-, e⟩ | ⟨-, e⟩ <;> rw [e]
  · exact (completeByte_pushKeeps _ _ _ _).srRd.trans hrd
  · exact hrd

theorem encodeWord_parts (h : SoundParts s) (hstarted : s.started = true) (hm : s.cfg.mode = .emitter)
    (hunread : s.emptyS = false) {slot : Cursor} (hslot : slot.toNat < s.cfg.capS) (w : Word) (fuel k : Nat) :
    SoundParts (encodeWord slot w fuel k s).1 := by
  induction fuel generalizing k s with
  | zero => exact h
  | succ fuel ih =>
    have hpass := packBit_parts h hstarted hm hunread hslot w k
    have hkeeps := packBit_keeps slot w k s
    unfold encodeWord
    simp only
    split
    · split
      · exact hpass
      · rename_i hdone
        have hrd := packBit_unfinished (Bool.eq_false_of_not_eq_true hdone)
        refine ih hpass (hkeeps.started.trans hstarted) (by rw [hkeeps.cfg, hm]) ?_ (by rw [hkeeps.cfg]; exact hslot) _
        rwa [emptyS_eq_false_iff, hkeeps.srWr, hrd, ← emptyS_eq_false_iff]
    · exact hpass

theorem encodeAll_parts (h : SoundParts s) (hstarted : s.started = true) (hm : s.cfg.mode = .emitter) (fuel : Nat) :
    SoundParts (encodeAll fuel s).1 := by
  induction fuel generalizing s with
  | zero => exact h
  | succ fuel ih =>
    unfold encodeAll
    simp only
    split
    · exact h
    · rename_i hempty
      have hword := encodeWord_parts h hstarted hm (Bool.eq_false_of_not_eq_true hempty) h.nextReadS_lt
        (s.srBuf.read s.nextReadS.toNat) (s.cfg.wordBits - s.srBits.toNat) 0
      have hkeeps := encodeWord_keeps s.nextReadS (s.srBuf.read s.nextReadS.toNat) (s.cfg.wordBits - s.srBits.toNat) 0 s
      split
      · exact ih hword (hkeeps.started.trans hstarted) (by rw [hkeeps.cfg, hm])
      · exact hword

end EncoderParts

/-! ### The Decoder keeps the parts -/

section DecoderParts

variable {s : State}

/-- A bit appended to a Word of `n` bits gives one of `n + 1` (R184). -/
theorem extractBit_lt {w : Word} {n : Nat} (hw : w.toNat < 2 ^ n) (s : State) :
    (extractBit w s).1.toNat < 2 ^ (n + 1) := by
  have happend (b : Bool) : ((w <<< 1) ||| (BitVec.ofBool b).setWidth 24).toNat < 2 ^ (n + 1) := by
    rw [BitVec.toNat_or]
    refine Nat.or_lt_two_pow ?_ ?_
    · rw [BitVec.toNat_shiftLeft, Nat.shiftLeft_eq, Nat.pow_succ]
      exact Nat.lt_of_le_of_lt (Nat.mod_le _ _) (by omega)
    · rw [BitVec.toNat_setWidth]
      refine Nat.lt_of_le_of_lt (Nat.mod_le _ _) ?_
      exact Nat.lt_of_lt_of_le (BitVec.ofBool b).isLt (Nat.pow_le_pow_right (by omega) (by omega))
  rcases extractBit_cases w s with ⟨-, e⟩ | ⟨-, e⟩ <;> rw [e] <;> exact happend _

theorem extractBits_lt {w : Word} {m : Nat} (hw : w.toNat < 2 ^ m) (n : Nat) (s : State) :
    (extractBits n w s).1.toNat < 2 ^ (m + n) := by
  induction n generalizing w m s with
  | zero => exact hw
  | succ n ih =>
    rw [show m + (n + 1) = m + 1 + n by omega]
    exact ih (extractBit_lt hw s) (extractBit w s).2

/-- Unread bits are bits of unread bytes (R183). -/
theorem depthB_ne_zero_of_avail {n : Nat} (h : n + 1 ≤ s.avail) : s.depthB ≠ 0 := by
  unfold State.avail at h
  omega

/-- Extraction takes one of the unread bits (R183, R184). -/
theorem extractBit_avail (h : SoundParts s) {n : Nat} (havail : n + 1 ≤ s.avail) (w : Word) :
    n ≤ (extractBit w s).2.avail := by
  have hunread := depthB_ne_zero_of_avail havail
  unfold State.avail at havail ⊢
  rcases extractBit_cases w s with ⟨hbit, e⟩ | ⟨hbit, e⟩ <;> rw [e]
  · have hne : s.brWr ≠ s.brRd := mt (depth_eq_zero_iff _ _ h.brWr_lt h.brRd_lt).2 hunread
    have hcap : s.cfg.capB ≤ 65536 := by have hbounds := h.capB_bounds; omega
    have hdepth : s.takeByte.depthB + 1 = s.depthB :=
      depth_inc_read h.brWr_lt h.brRd_lt hcap hne
    have hseven : s.brBit.toNat = 7 := by rw [hbit]; rfl
    have hcleared : (0 : BitVec 3).toNat = 0 := rfl
    simp only [State.withCount_depthB, State.withBit_depthB, State.withCount_brBit, State.withBit_brBit, hcleared]
    omega
  · have hmoved : (s.brBit + 1).toNat = s.brBit.toNat + 1 := by bv_omega
    simp only [State.withBit_depthB, State.withBit_brBit, hmoved]
    omega

theorem extractBit_parts (h : SoundParts s) (hstarted : s.started = true) (hm : s.cfg.mode = .receiver)
    (hsync : s.brSync = true) (hunread : s.depthB ≠ 0) (w : Word) : SoundParts (extractBit w s).2 := by
  rcases extractBit_cases w s with ⟨-, e⟩ | ⟨-, e⟩ <;> rw [e]
  · exact (h.readToNextByte hstarted hm).withCount hstarted fun he => absurd (hm.symm.trans he) (by decide)
  · exact h.readWithinByte hstarted hm hsync hunread _

theorem extractBits_parts (h : SoundParts s) (hstarted : s.started = true) (hm : s.cfg.mode = .receiver)
    (hsync : s.brSync = true) {n : Nat} (havail : n ≤ s.avail) (w : Word) : SoundParts (extractBits n w s).2 := by
  induction n generalizing w s with
  | zero => exact h
  | succ n ih =>
    have hkeeps := extractBit_keeps w s
    exact ih (extractBit_parts h hstarted hm hsync (depthB_ne_zero_of_avail havail) w)
      (hkeeps.started.trans hstarted) (by rw [hkeeps.cfg, hm]) (hkeeps.brSync.trans hsync)
      (extractBit_avail h havail w) _

theorem synchronize_parts (h : SoundParts s) (hstarted : s.started = true) (hm : s.cfg.mode = .receiver) :
    SoundParts (synchronize s) := by
  rcases synchronize_cases (s := s) with ⟨-, e⟩ | ⟨-, e⟩ <;> rw [e]
  · exact (h.discardBytes hstarted hm).markSynchronized hstarted hm
  · exact h

theorem synchronize_started : (synchronize s).started = s.started := by
  rcases synchronize_cases (s := s) with ⟨-, e⟩ | ⟨-, e⟩ <;> simp [e]

end DecoderParts

/-! ### Every command keeps the parts -/

section CommandParts

variable {s t : State}

theorem startMarker_parts (h : SoundParts s) (hstarted : s.started = true) (hnext : startMarker s = .next t) :
    SoundParts t := by
  have hcounted := h.withCount_zero hstarted
  rcases startMarker_next.1 hnext with ⟨-, hroom, rfl⟩ | ⟨-, -, rfl⟩ | ⟨-, rfl⟩
  · exact (hcounted.putByte hstarted hroom _).respond _
  · exact hcounted.respond _
  · exact h.respond _

theorem encoderUpdate_parts (h : SoundParts s) (hstarted : s.started = true) (hm : s.cfg.mode = .emitter)
    (hnext : encoderUpdate s = .next t) : SoundParts t := by
  have hall := encodeAll_parts h hstarted hm s.depthS
  rcases encoderUpdate_next.1 hnext with ⟨-, rfl⟩ | ⟨-, -, rfl⟩ | ⟨-, -, rfl⟩
  · exact h.respond _
  · exact hall.respond _
  · exact hall.respond _

theorem extractWord_parts (h : SoundParts s) (hstarted : s.started = true) (hm : s.cfg.mode = .receiver)
    (hsync : s.brSync = true) (hnext : extractWord s = .next t) : SoundParts t := by
  rcases extractWord_next.1 hnext with ⟨-, rfl⟩ | ⟨havail, hpush⟩
  · exact h.respond _
  · have hread := extractBits_parts h hstarted hm hsync havail 0
    have hkeeps := extractBits_keeps s.cfg.wordBits 0 s
    have hword : (extractBits s.cfg.wordBits 0 s).1.toNat < 2 ^ s.cfg.wordBits := by
      simpa using extractBits_lt (w := 0) (m := 0) (by decide) s.cfg.wordBits s
    rcases pushDecoded_next.1 hpush with ⟨-, rfl⟩ | ⟨hroom, rfl⟩
    · exact hread.respond _
    · exact (hread.putWord (hkeeps.started.trans hstarted) hroom (by rwa [hkeeps.cfg])).respond _

theorem decoderUpdate_parts (h : SoundParts s) (hstarted : s.started = true) (hm : s.cfg.mode = .receiver)
    (hnext : decoderUpdate s = .next t) : SoundParts t := by
  have hphase := synchronize_parts h hstarted hm
  have hstarted' : (synchronize s).started = true := synchronize_started.trans hstarted
  have hm' : (synchronize s).cfg.mode = .receiver := by rw [synchronize_cfg, hm]
  rcases decoderUpdate_next.1 hnext with ⟨hsync, hword⟩ | ⟨-, rfl⟩
  · exact extractWord_parts hphase hstarted' hm' hsync hword
  · exact (hphase.discardBytes hstarted' hm').respond _

/-- A port that goes on only answers, unless it does its work in an Active ring of its mode (R210). -/
theorem PortOutcome.parts {mode : Mode} {ring : RingState} {barred : Bool} {bar : Status} {data : BitVec 24}
    {done : State} (hport : PortOutcome mode ring barred bar data done s t) (h : SoundParts s)
    (hdone : s.cfg.mode = mode → ring = .active → barred = false → SoundParts done) : SoundParts t := by
  cases hport with
  | wrongMode => exact h.respond _
  | notActive => exact h.respond _
  | barred => exact h.respond _
  | done hm hr hb => exact (hdone hm hr hb).respond _

theorem SoundParts.started_of_brState (h : SoundParts s) (hb : s.brState = .active) : s.started = true := by
  obtain ⟨hsame, -⟩ := h.rings
  exact h.started (hsame.trans hb)

theorem exec_parts (h : SoundParts s) {i : Instr} (hnext : exec i s = .next t) : SoundParts t := by
  cases i with
  | start =>
    rcases (execStart_next.1 hnext).2 with ⟨-, rfl⟩ | ⟨-, -, rfl⟩ | ⟨-, hsize, hmark⟩
    · exact h.respond _
    · exact h.respond _
    · exact startMarker_parts ((h.markStarted_zeroFill hsize).activate_clearCursors rfl) rfl hmark
  | stop =>
    rcases (execStop_next.1 hnext).2 with ⟨-, rfl⟩ | ⟨-, rfl⟩
    · exact h.deactivate.respond _
    · exact (h.deactivate.clearSync RingState.noConfusion).respond _
  | restart =>
    rcases (execRestart_next.1 hnext).2 with ⟨hstarted, hmark⟩ | ⟨-, rfl⟩
    · exact startMarker_parts (h.activate_clearCursors hstarted) hstarted hmark
    · exact h.respond _
  | update =>
    rcases (execUpdate_next.1 hnext).2 with ⟨-, rfl⟩ | ⟨hactive, -, hm, henc⟩ | ⟨hactive, -, hm, hdec⟩
    · exact h.respond _
    · exact encoderUpdate_parts h (h.started hactive) hm henc
    · exact decoderUpdate_parts h (h.started hactive) hm hdec
  | pushw word =>
    rcases (execPushw_next.1 hnext).2 with ⟨hlegal, hport⟩ | ⟨-, rfl⟩
    · exact hport.parts h fun _ hactive hroom => h.putWord (h.started hactive) hroom (of_decide_eq_true hlegal)
    · exact h.respond _
  | popw => exact (execPopw_next.1 hnext).2.parts h fun hm hactive _ => h.takeWord (h.started hactive) hm
  | pushb byte =>
    exact (execPushb_next.1 hnext).2.parts h fun _ hactive hroom => h.putByte (h.started_of_brState hactive) hroom byte
  | popb => exact (execPopb_next.1 hnext).2.parts h fun hm hactive _ => h.takeByte (h.started_of_brState hactive) hm
  | rdreg reg => rcases (execRdreg_next.1 hnext).2 with ⟨-, rfl⟩ | ⟨-, rfl⟩ <;> exact h.respond _
  | peekw slot => rcases (execPeekw_next.1 hnext).2 with ⟨-, rfl⟩ | ⟨-, rfl⟩ <;> exact h.respond _
  | peekb slot => rcases (execPeekb_next.1 hnext).2 with ⟨-, rfl⟩ | ⟨-, rfl⟩ <;> exact h.respond _

theorem powerOn_parts {c : Config} (hc : c.WellFormed) (era : Nat) : SoundParts (State.powerOn c era) := by
  have ⟨⟨hbits, _⟩, ⟨hperiod, _⟩, hcapS, hcapB, _⟩ := hc
  exact {
    wellFormed := hc
    srWr_lt := zero_lt_of_bounds hcapS
    srRd_lt := zero_lt_of_bounds hcapS
    srBits_lt := hbits
    brWr_lt := zero_lt_of_bounds hcapB
    brRd_lt := zero_lt_of_bounds hcapB
    srCanonical := Memory.wf_nil _
    brCanonical := Memory.wf_nil _
    words := ⟨rfl, .inr rfl⟩
    filled := nofun
    rings := ⟨rfl, RingState.noConfusion, RingState.noConfusion⟩
    unstarted := fun _ => ⟨rfl, rfl, rfl, rfl, rfl, rfl, rfl, rfl, rfl, rfl⟩
    drained := fun _ => rfl
    emitter := fun _ => ⟨rfl, by simpa using hperiod, by simp⟩
    receiver := fun _ => ⟨rfl, rfl, fun _ => rfl, fun _ _ => rfl⟩ }

theorem step_parts (h : SoundParts s) (hnext : step s = .next t) : SoundParts t := by
  rcases step_cases hnext with
    ⟨-, hcfg, rfl⟩ | ⟨-, -, -, rfl⟩ | ⟨-, w, rest, i, -, -, hexec⟩ | ⟨-, w, rest, e, -, -, -, rfl⟩
  · exact powerOn_parts hcfg _
  · exact h.unanswered
  · exact exec_parts (h.withPending rest) hexec
  · exact (h.withPending rest).respond _

end CommandParts

/-- Settles O11: the reset state has the parts of soundness, and every command keeps them, update by update. -/
theorem stepKeepsSound : Obligations.StepKeepsSound := by
  intro s t h hnext
  exact sound_iff_parts.2 (step_parts (sound_iff_parts.1 h) hnext)

/-- Settles O10: every cursor, counter and flag is 0 and no slot is listed. -/
theorem resetStateSound : Obligations.ResetStateSound :=
  ⟨sound_iff_parts.2 (powerOn_parts (by decide) 0), fun _ era hc => sound_iff_parts.2 (powerOn_parts hc era)⟩

/-! ### Progress, and the states a run reaches (20_memory.md R90, 60_exceptions.md R253) -/

section Progress

variable {s : State}

theorem checkedOperand_goesOn {legal : Bool} {r : Result} (h : ∃ t, r = .next t) :
    ∃ t, checkedOperand legal s r = .next t := by
  cases legal with
  | true => exact h
  | false => exact ⟨_, rfl⟩

theorem port_goesOn {mode : Mode} {ring : RingState} {r : Result} (h : ∃ t, r = .next t) :
    ∃ t, port mode ring s r = .next t := by
  unfold port
  split
  · exact ⟨_, rfl⟩
  · split
    · exact ⟨_, rfl⟩
    · exact h

/-- A command's last choice, between a status and OK. -/
theorem ite_goesOn {c : Prop} [Decidable c] {r r' : Result} (h : ∃ t, r = .next t) (h' : ∃ t, r' = .next t) :
    ∃ t, (if c then r else r') = .next t := by
  split
  · exact h
  · exact h'

theorem startMarker_goesOn (s : State) : ∃ t, startMarker s = .next t := by
  unfold startMarker
  split
  · exact ite_goesOn ⟨_, rfl⟩ ⟨_, rfl⟩
  · exact ⟨_, rfl⟩

theorem encoderUpdate_goesOn (s : State) : ∃ t, encoderUpdate s = .next t :=
  ite_goesOn ⟨_, rfl⟩ (ite_goesOn ⟨_, rfl⟩ ⟨_, rfl⟩)

theorem decoderUpdate_goesOn (s : State) : ∃ t, decoderUpdate s = .next t :=
  ite_goesOn (ite_goesOn ⟨_, rfl⟩ (ite_goesOn ⟨_, rfl⟩ ⟨_, rfl⟩)) ⟨_, rfl⟩

/-- In a well-formed configuration with every cursor in its ring no command faults or is refused (log 8, log 9). -/
theorem exec_goesOn (hc : s.cfg.WellFormed) (hrange : s.InRange) (i : Instr) : ∃ t, exec i s = .next t := by
  have helab {r : Result} (h : ∃ t, r = .next t) : ∃ t, elaborated s r = .next t := by
    rwa [elaborated_of_wellFormed hc]
  cases i with
  | start => exact helab (ite_goesOn ⟨_, rfl⟩ (ite_goesOn ⟨_, rfl⟩ (startMarker_goesOn _)))
  | stop =>
    refine helab ?_
    split <;> exact ⟨_, rfl⟩
  | restart => exact helab (ite_goesOn (startMarker_goesOn _) ⟨_, rfl⟩)
  | update =>
    refine helab (ite_goesOn ⟨_, rfl⟩ ?_)
    rw [if_pos hrange]
    split
    · exact encoderUpdate_goesOn s
    · exact decoderUpdate_goesOn s
  | pushw word => exact helab (checkedOperand_goesOn (port_goesOn (ite_goesOn ⟨_, rfl⟩ ⟨_, rfl⟩)))
  | popw => exact helab (port_goesOn (ite_goesOn ⟨_, rfl⟩ ⟨_, rfl⟩))
  | pushb byte => exact helab (port_goesOn (ite_goesOn ⟨_, rfl⟩ ⟨_, rfl⟩))
  | popb => exact helab (port_goesOn (ite_goesOn ⟨_, rfl⟩ ⟨_, rfl⟩))
  | rdreg reg => exact helab (checkedOperand_goesOn ⟨_, rfl⟩)
  | peekw slot => exact helab (checkedOperand_goesOn ⟨_, rfl⟩)
  | peekb slot => exact helab (checkedOperand_goesOn ⟨_, rfl⟩)

theorem step_goesOn (hc : s.cfg.WellFormed) (hrange : s.InRange) : ∃ t, step s = .next t := by
  unfold step
  rcases take_cases (s := s) with ⟨-, hk⟩ | ⟨-, -, hk⟩ | ⟨-, w, rest, i, -, -, hk⟩ | ⟨-, w, rest, e, -, -, hk⟩
  all_goals rw [hk]
  · exact ⟨_, takeReset_next.2 ⟨hc, rfl⟩⟩
  · exact ⟨_, idle_next.2 ⟨hc, rfl⟩⟩
  · exact exec_goesOn (s := s.withPending rest) hc hrange i
  · exact ⟨_, illegalCommand_next.2 ⟨hc, rfl⟩⟩

theorem sound_goesOn (h : s.Sound) : ∃ t, step s = .next t := by
  obtain ⟨hc, hrange, -⟩ := h
  exact step_goesOn hc hrange

/-- The invariant of a run: the state is sound and the configuration is the first one's. -/
theorem reachable_sound_cfg {c : Config} (hc : c.WellFormed) (h : Reachable c s) : s.Sound ∧ s.cfg = c := by
  induction h with
  | powerOn era => exact ⟨sound_iff_parts.2 (powerOn_parts hc era), rfl⟩
  | present s w _ ih => exact ih
  | assertReset s _ ih => exact ih
  | step s t _ hnext ih =>
    obtain ⟨hsound, hcfg⟩ := ih
    exact ⟨stepKeepsSound s t hsound hnext, (stepKeepsParameters s t hnext).trans hcfg⟩

end Progress

/-- Settles O13: the invariant of a run, and progress from every sound state. -/
theorem reachableStatesSound : Obligations.ReachableStatesSound := by
  intro c hc s h
  obtain ⟨hsound, hcfg⟩ := reachable_sound_cfg hc h
  exact ⟨hsound, hcfg, sound_goesOn hsound⟩

/-! ### STOP with an unread byte (10_state.md R47 item 5, 40_session.md R136; log 10) -/

/-- A synchronized Receiver with one unread byte after the marker, as vector S-15 has it. -/
def receiverBeforeStop : State :=
  { State.powerOn { Config.example with mode := .receiver } 0 with
    srBuf := Memory.zeroed 24, brBuf := ⟨[(1, 0xFF), (2, 0x0A)], .zero⟩, brWr := 2, brRd := 1, brSync := true
    srState := .active, brState := .active, started := true }

theorem receiverBeforeStop_sound : receiverBeforeStop.Sound := by
  refine ⟨?_, ?_, ?_, ?_, ?_, ?_, ?_, ?_, ?_, ?_⟩ <;> decide

/-- Refutes O25: STOP clears `BR.SYNC` of `receiverBeforeStop` and keeps `BR.RD` at 1 and `BR.WR` at 2. -/
theorem not_stopKeepsUnsynchronizedRingEmpty : ¬ Obligations.StopKeepsUnsynchronizedRingEmpty := by
  intro h
  have hstop : exec .stop receiverBeforeStop =
      .next (receiverBeforeStop.deactivate.clearSync.respond (responseWord .ok false 0)) := rfl
  obtain ⟨hempty, -⟩ := h receiverBeforeStop _ receiverBeforeStop_sound rfl nofun hstop rfl
  exact absurd hempty (by decide)

/-! ### RDREG tells states apart (44_readback.md R231) -/

section Readback

/-- Zero-extension to the 24 bits of `DATA` drops nothing. -/
theorem setWidth_data_injective {w : Nat} (hw : w ≤ 24) {a b : BitVec w} (h : a.setWidth 24 = b.setWidth 24) :
    a = b := by
  apply BitVec.eq_of_toNat_eq
  simpa [BitVec.toNat_setWidth_of_le hw] using congrArg BitVec.toNat h

/-- A number that fits a field is shown in full. -/
theorem ofNat_injective {w m n : Nat} (hm : m < 2 ^ w) (hn : n < 2 ^ w) (h : BitVec.ofNat w m = BitVec.ofNat w n) :
    m = n := by
  simpa [Nat.mod_eq_of_lt hm, Nat.mod_eq_of_lt hn] using congrArg BitVec.toNat h

theorem ringStateCode_injective {a b : RingState} (h : ringStateCode a = ringStateCode b) : a = b := by
  revert h; cases a <;> cases b <;> decide

theorem modeBit_injective {a b : Mode} (h : modeBit a = modeBit b) : a = b := by
  revert h; cases a <;> cases b <;> decide

/-- A flag read as one bit of `DATA`. -/
theorem flag_injective {a b : Bool} (h : (BitVec.ofBool a).setWidth 24 = (BitVec.ofBool b).setWidth 24) : a = b :=
  BitVec.ofBool_eq_iff_eq.1 (setWidth_data_injective (by decide) h)

/-- A ring state read as two bits of `DATA`. -/
theorem ringState_injective {a b : RingState}
    (h : (ringStateCode a).setWidth 24 = (ringStateCode b).setWidth 24) : a = b :=
  ringStateCode_injective (setWidth_data_injective (by decide) h)

/-- CONFIG0 bit by bit (R231). -/
theorem getLsbD_config0Value (c : Config) {i : Nat} (hi : i < 24) :
    (config0Value c).getLsbD i =
      (decide (8 ≤ i) && c.syncSignal.getLsbD (i - 8) || decide (i = 5) && modeBit c.mode
        || (BitVec.ofNat 5 c.wordBits).getLsbD i) := by
  have hmode : (decide (5 ≤ i) && (BitVec.ofBool (modeBit c.mode)).getLsbD (i - 5)) =
      (decide (i = 5) && modeBit c.mode) := by
    rw [BitVec.getLsbD_ofBool]
    grind
  rw [← hmode]
  simp only [config0Value, BitVec.getLsbD_or, BitVec.getLsbD_shiftLeft, BitVec.getLsbD_setWidth]
  grind

theorem config0_syncSignal (c : Config) : (config0Value c).extractLsb' 8 8 = c.syncSignal := by
  apply BitVec.eq_of_getLsbD_eq
  intro i hi
  have hlow : (BitVec.ofNat 5 c.wordBits).getLsbD (8 + i) = false := BitVec.getLsbD_of_ge _ _ (by omega)
  rw [BitVec.getLsbD_extractLsb', getLsbD_config0Value c (by omega), hlow]
  simp [hi, show 8 + i ≠ 5 by omega]

theorem config0_mode (c : Config) : (config0Value c).getLsbD 5 = modeBit c.mode := by
  rw [getLsbD_config0Value c (by omega), BitVec.getLsbD_of_ge _ 5 (by omega)]
  simp

theorem config0_wordBits (c : Config) : (config0Value c).extractLsb' 0 5 = BitVec.ofNat 5 c.wordBits := by
  apply BitVec.eq_of_getLsbD_eq
  intro i hi
  rw [BitVec.getLsbD_extractLsb', getLsbD_config0Value c (by omega)]
  simp [hi, show ¬ 8 ≤ i by omega, show i ≠ 5 by omega]

/-- Every register has an index (R231). -/
theorem exists_index (r : Reg) : ∃ reg : BitVec 8, reg.toNat ≤ 0x0F ∧ regMap.getD reg.toNat .config0 = r :=
  ⟨BitVec.ofNat 8 (regMap.idxOf r), by cases r <;> decide, by cases r <;> rfl⟩

variable {s t : State}

/-- A register index in the map is answered with its register's value (R230). -/
theorem exec_rdreg (hc : s.cfg.WellFormed) {reg : BitVec 8} (hreg : reg.toNat ≤ 0x0F) :
    exec (.rdreg reg) s =
      .next (s.respond (responseWord .ok false (regValue s (regMap.getD reg.toNat .config0)))) :=
  execRdreg_next.2 ⟨hc, .inl ⟨decide_eq_true hreg, rfl⟩⟩

/-- No register tells the two states apart. -/
def ReadAlike (s t : State) : Prop :=
  ∀ (reg : BitVec 8) (s' t' : State), reg.toNat ≤ 0x0F → exec (.rdreg reg) s = .next s' →
    exec (.rdreg reg) t = .next t' → s'.response = t'.response

theorem ReadAlike.regValue_eq (h : ReadAlike s t) (hs : s.cfg.WellFormed) (ht : t.cfg.WellFormed) (r : Reg) :
    regValue s r = regValue t r := by
  obtain ⟨reg, hreg, hr⟩ := exists_index r
  have hresp := h reg _ _ hreg (exec_rdreg hs hreg) (exec_rdreg ht hreg)
  rw [hr] at hresp
  simpa using congrArg dataField (Option.some.inj hresp)

end Readback

/-- Settles O38: each register's value gives back the elements it shows. -/
theorem registersShowEveryElement : Obligations.RegistersShowEveryElement := by
  intro s t hs ht halike
  have hval := ReadAlike.regValue_eq halike hs ht
  have hconfig : config0Value s.cfg = config0Value t.cfg := hval .config0
  obtain ⟨⟨-, hsBits⟩, ⟨-, hsPeriod⟩, ⟨-, hsCapS⟩, ⟨-, hsCapB⟩, -⟩ := hs
  obtain ⟨⟨-, htBits⟩, ⟨-, htPeriod⟩, ⟨-, htCapS⟩, ⟨-, htCapB⟩, -⟩ := ht
  have hwordBits : BitVec.ofNat 5 s.cfg.wordBits = BitVec.ofNat 5 t.cfg.wordBits := by
    rw [← config0_wordBits, hconfig, config0_wordBits]
  have hmode : modeBit s.cfg.mode = modeBit t.cfg.mode := by rw [← config0_mode, hconfig, config0_mode]
  have hsignal : s.cfg.syncSignal = t.cfg.syncSignal := by rw [← config0_syncSignal, hconfig, config0_syncSignal]
  exact ⟨setWidth_data_injective (by decide) (hval .srWr), setWidth_data_injective (by decide) (hval .srRd),
    setWidth_data_injective (by decide) (hval .srBits), ringState_injective (hval .srState),
    setWidth_data_injective (by decide) (hval .brWr), setWidth_data_injective (by decide) (hval .brRd),
    setWidth_data_injective (by decide) (hval .brBit), flag_injective (hval .brSync),
    setWidth_data_injective (by decide) (hval .brBss), ringState_injective (hval .brState),
    setWidth_data_injective (by decide) (hval .encAcc), flag_injective (hval .session),
    modeBit_injective hmode, ofNat_injective (by omega) (by omega) hwordBits, hsignal,
    ofNat_injective (by omega) (by omega) (hval .syncPeriod), ofNat_injective (by omega) (by omega) (hval .srCap),
    ofNat_injective (by omega) (by omega) (hval .brCap)⟩

end Sys2Proof.Machine

/-! ## Slots (20_memory.md R70, R71; log 12)

The entries of a buffer in canonical form are told by its reads. -/

namespace Sys2Proof.Machine

section CanonicalBuffers

variable {w : Nat}

theorem Memory.mem_of_lookup {cells : List (Nat × BitVec w)} {slot : Nat} {v : BitVec w}
    (h : Memory.lookup cells slot = some v) : (slot, v) ∈ cells := by
  induction cells with
  | nil => simp [Memory.lookup] at h
  | cons c cs ih =>
    by_cases hc : c.1 = slot
    · obtain rfl : c.2 = v := by simpa [Memory.lookup, hc] using h
      simp [← hc]
    · exact List.mem_cons_of_mem c (ih (by simpa [Memory.lookup, hc] using h))

theorem Memory.lookup_of_mem {cells : List (Nat × BitVec w)} (hr : Memory.rising cells = true) {c : Nat × BitVec w}
    (h : c ∈ cells) : Memory.lookup cells c.1 = some c.2 := by
  induction cells with
  | nil => simp at h
  | cons d ds ih =>
    obtain ⟨habove, hrest⟩ := (Memory.rising_cons d ds).1 hr
    rcases List.mem_cons.1 h with rfl | hmem
    · simp [Memory.lookup]
    · simpa [Memory.lookup, (habove c hmem).ne] using ih hrest hmem

theorem Memory.pairwise_of_rising {cells : List (Nat × BitVec w)} (h : Memory.rising cells = true) :
    cells.Pairwise (Prod.fst ⁻¹'o (· < ·)) := by
  induction cells with
  | nil => exact .nil
  | cons c cs ih =>
    obtain ⟨habove, hrest⟩ := (Memory.rising_cons c cs).1 h
    exact .cons habove (ih hrest)

theorem Memory.wf_iff {m : Memory w} :
    m.wf = true ↔ Memory.rising m.cells = true ∧ ∀ c ∈ m.cells, c.2 ≠ m.unlisted c.1 := by
  simp [Memory.wf]

/-- In canonical form the listed slots are those that read otherwise than the fill. -/
theorem Memory.mem_cells_iff {m : Memory w} (h : m.wf = true) {c : Nat × BitVec w} :
    c ∈ m.cells ↔ m.read c.1 = c.2 ∧ c.2 ≠ m.unlisted c.1 := by
  obtain ⟨hrising, hlisted⟩ := Memory.wf_iff.1 h
  constructor
  · intro hc
    exact ⟨by simp [Memory.read, Memory.lookup_of_mem hrising hc], hlisted c hc⟩
  · rintro ⟨hread, hne⟩
    cases hl : Memory.lookup m.cells c.1 with
    | none => exact absurd (by simpa [Memory.read, hl] using hread.symm) hne
    | some v =>
      obtain rfl : v = c.2 := by simpa [Memory.read, hl] using hread
      exact Memory.mem_of_lookup hl

end CanonicalBuffers

/-- Settles O16: the two lists rise and have the same entries, since reads and fill tell the entries. -/
theorem canonicalMemoriesEqualIfReadAlike : Obligations.CanonicalMemoriesEqualIfReadAlike := by
  intro w m n hm hn hfill hread
  have hunlisted (slot : Nat) : m.unlisted slot = n.unlisted slot := by simp only [Memory.unlisted, hfill]
  obtain ⟨hmrising, -⟩ := Memory.wf_iff.1 hm
  obtain ⟨hnrising, -⟩ := Memory.wf_iff.1 hn
  have hcells : m.cells = n.cells :=
    (Memory.pairwise_of_rising hmrising).eq_of_mem_iff (Memory.pairwise_of_rising hnrising) fun c => by
      rw [Memory.mem_cells_iff hm, Memory.mem_cells_iff hn, hread, hunlisted]
  exact congrArg₂ Memory.mk hcells hfill

/-! ## The step (20_memory.md R90) -/

/-- Settles O7: what is taken is that command, and the step is its meaning. -/
theorem stepRunsDecodedCommand : Obligations.StepRunsDecodedCommand := by
  intro s w rest i hline hpending hdecode
  have htaken : take s = .command i rest := by simp [take, hline, hpending, hdecode]
  rw [step, htaken]
  rfl

/-! ## The rings (20_memory.md R73 to R78)

A ring is its slots, two cursors and a capacity. A command writes new items into a ring or consumes old ones of it, never
both, and each of the two loses no unread item. -/

section CursorDepth

variable {wr rd : Cursor} {cap : Nat}

/-- A read cursor moved on by the depth is at the write cursor, in one turn or in the next (R74). -/
theorem depth_add_read (hw : wr.toNat < cap) (hr : rd.toNat < cap) :
    depth wr rd cap + rd.toNat = wr.toNat ∨ depth wr rd cap + rd.toNat = wr.toNat + cap := by
  rw [depth_eq wr rd hw hr]
  split <;> omega

/-- A ring is full exactly when it holds one item fewer than its capacity (R75). -/
theorem inc_eq_iff_depth (hw : wr.toNat < cap) (hr : rd.toNat < cap) (hcap : cap ≤ 65536) :
    inc wr cap = rd ↔ depth wr rd cap = cap - 1 := by
  have hadd := depth_add_read hw hr
  have hlt : depth wr rd cap < cap := depth_lt wr rd (by omega)
  rw [← BitVec.toNat_inj]
  rcases toNat_inc_cases wr hw hcap with ⟨hnext, hinc⟩ | ⟨hlast, hinc⟩ <;> omega

/-- Writing one item into a ring that is not full raises its depth by one (R74). -/
theorem depth_inc_write (hw : wr.toNat < cap) (hr : rd.toNat < cap) (hcap : cap ≤ 65536) (hroom : inc wr cap ≠ rd) :
    depth (inc wr cap) rd cap = depth wr rd cap + 1 := by
  have hroom' : depth wr rd cap ≠ cap - 1 := mt (inc_eq_iff_depth hw hr hcap).2 hroom
  have hlt : depth wr rd cap < cap := depth_lt wr rd (by omega)
  have hlt' : depth (inc wr cap) rd cap < cap := depth_lt _ rd (by omega)
  have hadd := depth_add_read hw hr
  have hadd' := depth_add_read (inc_lt wr (by omega) hcap) hr
  rcases toNat_inc_cases wr hw hcap with ⟨hnext, hinc⟩ | ⟨hlast, hinc⟩ <;> omega

theorem depth_self {c : Cursor} (h : c.toNat < cap) : depth c c cap = 0 := (depth_eq_zero_iff c c h h).2 rfl

/-- The distances between three cursors of one ring add up, modulo its capacity. -/
theorem depth_triangle {a b c : Cursor} (ha : a.toNat < cap) (hb : b.toNat < cap) (hc : c.toNat < cap) :
    depth a b cap + depth b c cap = depth a c cap ∨ depth a b cap + depth b c cap = depth a c cap + cap := by
  have hab := depth_add_read ha hb
  have hbc := depth_add_read hb hc
  have hac := depth_add_read ha hc
  have hlt : depth a b cap < cap := depth_lt a b (by omega)
  have hlt' : depth b c cap < cap := depth_lt b c (by omega)
  have hlt'' : depth a c cap < cap := depth_lt a c (by omega)
  omega

end CursorDepth

/-- Settles O33: a cursor's successor is the other cursor one item before the depth reaches the capacity. -/
theorem ringHoldsOneLessThanCapacity : Obligations.RingHoldsOneLessThanCapacity := by
  rintro s ⟨-, -, ⟨-, hcapS⟩, ⟨-, hcapB⟩, -⟩ ⟨hsw, hsr, -, hbw, hbr⟩
  have hfullS : s.fullS = true ↔ s.depthS = s.cfg.capS - 1 := beq_iff_eq.trans (inc_eq_iff_depth hsw hsr (by omega))
  have hfullB : s.fullB = true ↔ s.depthB = s.cfg.capB - 1 := beq_iff_eq.trans (inc_eq_iff_depth hbw hbr (by omega))
  have hemptyS : s.emptyS = true ↔ s.depthS = 0 := beq_iff_eq.trans (depth_eq_zero_iff _ _ hsw hsr).symm
  have hemptyB : s.emptyB = true ↔ s.depthB = 0 := beq_iff_eq.trans (depth_eq_zero_iff _ _ hbw hbr).symm
  have hdepthS : s.depthS < s.cfg.capS := depth_lt _ _ (by omega)
  have hdepthB : s.depthB < s.cfg.capB := depth_lt _ _ (by omega)
  exact ⟨hfullS, hemptyS, by omega, hfullB, hemptyB, by omega⟩

/-- Settles O32: each consumer's empty outcome; without a marker the Decoder is in phase 2 as it stands. -/
theorem emptyRingAtItsConsumers : Obligations.EmptyRingAtItsConsumers := by
  intro s hc
  refine ⟨fun hm hactive hempty => ?_, fun hm hactive hempty => ?_, fun hrange hm hactive hempty => ?_,
    fun hrange hm hactive hsync hmarker hshort => ?_⟩
  · exact execPopb_next.2 ⟨hc, .barred hm hactive hempty⟩
  · exact execPopw_next.2 ⟨hc, .barred hm hactive hempty⟩
  · exact execUpdate_next.2 ⟨hc, .inr (.inl ⟨hactive, hrange, hm, encoderUpdate_next.2 (.inl ⟨hempty, rfl⟩)⟩)⟩
  · have hphase : synchronize s = s := by simp [synchronize, hmarker]
    refine execUpdate_next.2 ⟨hc, .inr (.inr ⟨hactive, hrange, hm, decoderUpdate_next.2 (.inl ?_)⟩)⟩
    rw [hphase]
    exact ⟨hsync, extractWord_next.2 (.inl ⟨hshort, rfl⟩)⟩

section Rings

variable {w : Nat}

/-- One ring of the block on its own: its slots, its two cursors and its capacity. -/
structure RingView (w : Nat) where
  buf : Memory w
  wr : Cursor
  rd : Cursor
  cap : Nat

/-- The SampleRing of a state. -/
def State.sampleRing (s : State) : RingView 24 := ⟨s.srBuf, s.srWr, s.srRd, s.cfg.capS⟩

/-- The BitRing of a state. -/
def State.bitRing (s : State) : RingView 8 := ⟨s.brBuf, s.brWr, s.brRd, s.cfg.capB⟩

namespace RingView

/-- Both cursors name slots of the ring, and a cursor can name each slot (R30). -/
structure InRange (r : RingView w) : Prop where
  wr_lt : r.wr.toNat < r.cap
  rd_lt : r.rd.toNat < r.cap
  cap_le : r.cap ≤ 65536

/-- The number of unread items (R74). -/
def depth (r : RingView w) : Nat := Machine.depth r.wr r.rd r.cap

/-- The unread items, oldest first (R74). -/
def unread (r : RingView w) : List (BitVec w) := ringItems r.buf r.cap r.depth r.rd

/-- An item written after the newest (R75). -/
def put (r : RingView w) (v : BitVec w) : RingView w :=
  { r with wr := inc r.wr r.cap, buf := r.buf.write (inc r.wr r.cap).toNat v }

/-- The oldest item consumed (R74). -/
def take (r : RingView w) : RingView w := { r with rd := inc r.rd r.cap }

/-- Every item consumed at once (R78). -/
def discard (r : RingView w) : RingView w := { r with rd := r.wr }

end RingView

/-! ### The rings of a state, and what the named updates do to them -/

section OfState

variable (s : State)

theorem State.unread_sampleRing : s.sampleRing.unread = s.unreadWords := rfl
theorem State.unread_bitRing : s.bitRing.unread = s.unreadBytes := rfl

theorem State.sampleRing_putWord (v : Word) : (s.putWord v).sampleRing = s.sampleRing.put v := rfl
theorem State.sampleRing_takeWord : s.takeWord.sampleRing = s.sampleRing.take := rfl
theorem State.bitRing_putByte (b : Byte) : (s.putByte b).bitRing = s.bitRing.put b := rfl
theorem State.bitRing_takeByte : s.takeByte.bitRing = s.bitRing.take := rfl
theorem State.bitRing_discardBytes : s.discardBytes.bitRing = s.bitRing.discard := rfl

end OfState

variable {s : State}

theorem SoundParts.sampleRing (h : SoundParts s) : s.sampleRing.InRange :=
  ⟨h.srWr_lt, h.srRd_lt, by have hcap := h.capS_bounds; show s.cfg.capS ≤ 65536; omega⟩

theorem SoundParts.bitRing (h : SoundParts s) : s.bitRing.InRange :=
  ⟨h.brWr_lt, h.brRd_lt, by have hcap := h.capB_bounds; show s.cfg.capB ≤ 65536; omega⟩

/-! ### The items of a ring -/

/-- The item `j` places after the oldest is in the slot `j + 1` places after the last consumed one (R74). -/
theorem ringItems_eq_map (m : Memory w) {cap : Nat} (h0 : 0 < cap) (hcap : cap ≤ 65536) (n : Nat) (rd : Cursor) :
    ringItems m cap n rd = (List.range n).map fun j => m.read ((rd.toNat + 1 + j) % cap) := by
  induction n generalizing rd with
  | zero => rfl
  | succ n ih =>
    rw [ringItems, ih, List.range_succ_eq_map, List.map_cons, List.map_map, toNat_inc rd h0 hcap]
    refine congrArg₂ List.cons rfl (List.map_congr_left fun j _ => ?_)
    show m.read (((rd.toNat + 1) % cap + 1 + j) % cap) = m.read ((rd.toNat + 1 + (j + 1)) % cap)
    rw [Nat.add_assoc, Nat.mod_add_mod, Nat.add_comm 1 j]

namespace RingView

variable {r r' : RingView w}

theorem InRange.length_unread (h : r.InRange) : r.unread.length = r.depth := by
  have h0 : 0 < r.cap := Nat.zero_lt_of_lt h.wr_lt
  simp [unread, ringItems_eq_map _ h0 h.cap_le]

theorem InRange.put (h : r.InRange) (v : BitVec w) : (r.put v).InRange :=
  ⟨inc_lt _ (Nat.zero_lt_of_lt h.wr_lt) h.cap_le, h.rd_lt, h.cap_le⟩

theorem InRange.take (h : r.InRange) : r.take.InRange :=
  ⟨h.wr_lt, inc_lt _ (Nat.zero_lt_of_lt h.wr_lt) h.cap_le, h.cap_le⟩

theorem InRange.discard (h : r.InRange) : r.discard.InRange := ⟨h.wr_lt, h.wr_lt, h.cap_le⟩

/-- A write into a ring that is not full puts the item after the unread ones and leaves them as they are: its slot is
none of theirs (R75). -/
theorem InRange.unread_put (h : r.InRange) (hroom : inc r.wr r.cap ≠ r.rd) (v : BitVec w) :
    (r.put v).unread = r.unread ++ [v] := by
  have h0 : 0 < r.cap := Nat.zero_lt_of_lt h.wr_lt
  have hdepth : (r.put v).depth = r.depth + 1 := depth_inc_write h.wr_lt h.rd_lt h.cap_le hroom
  have hlt : (r.put v).depth < r.cap := depth_lt _ _ h0
  have hslot : (r.rd.toNat + 1 + r.depth) % r.cap = (inc r.wr r.cap).toNat := by
    rw [toNat_inc _ h0 h.cap_le]
    rcases depth_add_read h.wr_lt h.rd_lt with hadd | hadd
    · rw [← hadd, Nat.add_right_comm, Nat.add_comm r.rd.toNat, RingView.depth]
    · rw [Nat.add_right_comm, Nat.add_comm r.rd.toNat, RingView.depth, hadd, Nat.add_right_comm, Nat.add_mod_right]
  have hother (j : Nat) (hj : j < r.depth) : (r.rd.toNat + 1 + j) % r.cap ≠ (inc r.wr r.cap).toNat := by
    intro he
    have hmod : j ≡ r.depth [MOD r.cap] := Nat.ModEq.add_left_cancel' _ (he.trans hslot.symm)
    exact hj.ne (hmod.eq_of_lt_of_lt (by omega) (by omega))
  rw [unread, hdepth, unread, ringItems_eq_map _ (cap := (r.put v).cap) h0 h.cap_le, ringItems_eq_map _ h0 h.cap_le,
    List.range_succ, List.map_append]
  refine congrArg₂ (· ++ ·) (List.map_congr_left fun j hj => ?_) ?_
  · exact Memory.read_write_other _ _ (hother j (List.mem_range.1 hj))
  · show [(r.buf.write (inc r.wr r.cap).toNat v).read ((r.rd.toNat + 1 + r.depth) % r.cap)] = [v]
    rw [hslot, Memory.read_write_same]

/-- Consuming one item of a ring that is not empty takes the oldest and leaves the others in order (R74). -/
theorem InRange.unread_take (h : r.InRange) (hunread : r.wr ≠ r.rd) :
    r.unread = r.buf.read (inc r.rd r.cap).toNat :: r.take.unread := by
  have hdepth : r.take.depth + 1 = r.depth := depth_inc_read h.wr_lt h.rd_lt h.cap_le hunread
  rw [unread, ← hdepth]
  rfl

theorem InRange.unread_discard (h : r.InRange) : r.discard.unread = [] := by
  have hdepth : r.discard.depth = 0 := depth_self h.wr_lt
  rw [unread, hdepth]
  rfl

/-! ### Filling and draining -/

/-- `r'` is `r` after writes, none into a full ring. -/
inductive Filled (r : RingView w) : RingView w → Prop where
  | none : Filled r r
  | put {r' : RingView w} (h : Filled r r') (hroom : inc r'.wr r'.cap ≠ r'.rd) (v : BitVec w) : Filled r (r'.put v)

/-- `r'` is `r` after items were consumed, none of an empty ring. -/
inductive Drained (r : RingView w) : RingView w → Prop where
  | none : Drained r r
  | take {r' : RingView w} (h : Drained r r') (hunread : r'.wr ≠ r'.rd) : Drained r r'.take
  | discard {r' : RingView w} (h : Drained r r') : Drained r r'.discard

theorem Filled.trans {r'' : RingView w} (h : Filled r r') (k : Filled r' r'') : Filled r r'' := by
  induction k with
  | none => exact h
  | put _ hroom v ih => exact ih.put hroom v

theorem Drained.trans {r'' : RingView w} (h : Drained r r') (k : Drained r' r'') : Drained r r'' := by
  induction k with
  | none => exact h
  | take _ hunread ih => exact ih.take hunread
  | discard _ ih => exact ih.discard

theorem Filled.wf (h : Filled r r') (hwf : r.buf.wf = true) : r'.buf.wf = true := by
  induction h with
  | none => exact hwf
  | put _ _ v ih => exact Memory.wf_write _ v ih

theorem Filled.rd_eq (h : Filled r r') : r'.rd = r.rd := by
  induction h with
  | none => rfl
  | put _ _ _ ih => exact ih

theorem Filled.cap_eq (h : Filled r r') : r'.cap = r.cap := by
  induction h with
  | none => rfl
  | put _ _ _ ih => exact ih

theorem Drained.wr_eq (h : Drained r r') : r'.wr = r.wr := by
  induction h with
  | none => rfl
  | take _ _ ih => exact ih
  | discard _ ih => exact ih

theorem Drained.cap_eq (h : Drained r r') : r'.cap = r.cap := by
  induction h with
  | none => rfl
  | take _ _ ih => exact ih
  | discard _ ih => exact ih

/-- Writes put new items after the unread ones. -/
theorem Filled.unread_eq (h : Filled r r') (hr : r.InRange) : r'.InRange ∧ ∃ new, r'.unread = r.unread ++ new := by
  induction h with
  | none => exact ⟨hr, [], by simp⟩
  | put _ hroom v ih =>
    obtain ⟨hrange, new, hnew⟩ := ih
    exact ⟨hrange.put v, new ++ [v], by rw [hrange.unread_put hroom, hnew, List.append_assoc]⟩

/-- Consuming leaves the newest of the unread items. -/
theorem Drained.unread_suffix (h : Drained r r') (hr : r.InRange) : r'.InRange ∧ r'.unread <:+ r.unread := by
  induction h with
  | none => exact ⟨hr, List.suffix_rfl⟩
  | take _ hunread ih =>
    obtain ⟨hrange, hrest⟩ := ih
    rw [hrange.unread_take hunread] at hrest
    exact ⟨hrange.take, (List.suffix_cons _ _).trans hrest⟩
  | discard _ ih =>
    obtain ⟨hrange, -⟩ := ih
    exact ⟨hrange.discard, by rw [hrange.unread_discard]; exact List.nil_suffix⟩

/-- No unread item is lost but those the read cursor passed, from the old end, and what came, came at the new end: as many
items as the write cursor moved by (R74, R76). -/
def KeepsUnread (r r' : RingView w) : Prop :=
  let taken := Machine.depth r'.rd r.rd r.cap
  taken ≤ r.depth ∧ ∃ new, new.length = Machine.depth r'.wr r.wr r.cap ∧ r'.unread = r.unread.drop taken ++ new

theorem Filled.keepsUnread (h : Filled r r') (hr : r.InRange) : r.KeepsUnread r' := by
  obtain ⟨hr', new, hnew⟩ := h.unread_eq hr
  have htaken : Machine.depth r'.rd r.rd r.cap = 0 := by rw [h.rd_eq, depth_self hr.rd_lt]
  have hlen : r'.depth = r.depth + new.length := by
    rw [← hr'.length_unread, ← hr.length_unread, hnew, List.length_append]
  have hmoved : new.length = Machine.depth r'.wr r.wr r.cap := by
    have htri := depth_triangle (h.cap_eq ▸ hr'.wr_lt) hr.wr_lt hr.rd_lt
    have hlt : Machine.depth r'.wr r.wr r.cap < r.cap := depth_lt _ _ (Nat.zero_lt_of_lt hr.wr_lt)
    rw [RingView.depth, RingView.depth, h.rd_eq, h.cap_eq] at hlen
    omega
  exact ⟨by rw [htaken]; exact Nat.zero_le _, new, hmoved, by rw [htaken, hnew, List.drop_zero]⟩

theorem Drained.keepsUnread (h : Drained r r') (hr : r.InRange) : r.KeepsUnread r' := by
  obtain ⟨hr', hrest⟩ := h.unread_suffix hr
  have hmoved : Machine.depth r'.wr r.wr r.cap = 0 := by rw [h.wr_eq, depth_self hr.wr_lt]
  have hlen : r'.depth ≤ r.depth := by
    rw [← hr'.length_unread, ← hr.length_unread]
    exact hrest.length_le
  have htaken : Machine.depth r'.rd r.rd r.cap = r.depth - r'.depth := by
    have htri := depth_triangle hr.wr_lt (h.cap_eq ▸ hr'.rd_lt) hr.rd_lt
    have hlt : Machine.depth r'.rd r.rd r.cap < r.cap := depth_lt _ _ (Nat.zero_lt_of_lt hr.wr_lt)
    simp only [RingView.depth, h.wr_eq, h.cap_eq] at hlen ⊢
    omega
  refine ⟨by rw [htaken]; exact Nat.sub_le _ _, [], by rw [hmoved]; rfl, ?_⟩
  rw [htaken, List.append_nil, ← hr.length_unread, ← hr'.length_unread]
  exact List.suffix_iff_eq_drop.1 hrest

end RingView

/-! ### The named updates, as filling and draining -/

open RingView

theorem State.filled_putWord (hroom : s.fullS = false) (v : Word) : s.sampleRing.Filled (s.putWord v).sampleRing := by
  rw [State.sampleRing_putWord]
  exact .put (r' := s.sampleRing) .none (fullS_eq_false_iff.1 hroom) v

theorem State.filled_putByte (hroom : s.fullB = false) (b : Byte) : s.bitRing.Filled (s.putByte b).bitRing := by
  rw [State.bitRing_putByte]
  exact .put (r' := s.bitRing) .none (fullB_eq_false_iff.1 hroom) b

theorem State.drained_takeWord (hunread : s.emptyS = false) : s.sampleRing.Drained s.takeWord.sampleRing := by
  rw [State.sampleRing_takeWord]
  exact .take .none (emptyS_eq_false_iff.1 hunread)

theorem State.drained_takeByte (hunread : s.emptyB = false) : s.bitRing.Drained s.takeByte.bitRing := by
  rw [State.bitRing_takeByte]
  exact .take .none (emptyB_eq_false_iff.1 hunread)

theorem State.drained_discardBytes : s.bitRing.Drained s.discardBytes.bitRing := by
  rw [State.bitRing_discardBytes]
  exact .discard .none

/-! ### The unread items of a sound state, after a named update -/

theorem SoundParts.unreadWords_putWord (h : SoundParts s) (hroom : s.fullS = false) (v : Word) :
    (s.putWord v).unreadWords = s.unreadWords ++ [v] := by
  rw [← State.unread_sampleRing, State.sampleRing_putWord,
    h.sampleRing.unread_put (fullS_eq_false_iff.1 hroom), State.unread_sampleRing]

theorem SoundParts.unreadBytes_putByte (h : SoundParts s) (hroom : s.fullB = false) (b : Byte) :
    (s.putByte b).unreadBytes = s.unreadBytes ++ [b] := by
  rw [← State.unread_bitRing, State.bitRing_putByte,
    h.bitRing.unread_put (fullB_eq_false_iff.1 hroom), State.unread_bitRing]

theorem SoundParts.unreadWords_takeWord (h : SoundParts s) (hunread : s.emptyS = false) :
    s.unreadWords = s.srBuf.read s.nextReadS.toNat :: s.takeWord.unreadWords := by
  rw [← State.unread_sampleRing, h.sampleRing.unread_take (emptyS_eq_false_iff.1 hunread), ← State.sampleRing_takeWord,
    State.unread_sampleRing]
  rfl

theorem SoundParts.unreadBytes_takeByte (h : SoundParts s) (hunread : s.emptyB = false) :
    s.unreadBytes = s.brBuf.read s.nextReadB.toNat :: s.takeByte.unreadBytes := by
  rw [← State.unread_bitRing, h.bitRing.unread_take (emptyB_eq_false_iff.1 hunread), ← State.bitRing_takeByte,
    State.unread_bitRing]
  rfl

end Rings

section Ports

variable {s t : State} {mode : Mode} {ring : RingState} {barred : Bool} {bar : Status} {data : BitVec 24} {done : State}

/-- A property that no response touches and the port's work keeps, the port keeps. -/
theorem PortOutcome.preserves {P : State → Prop} (hport : PortOutcome mode ring barred bar data done s t)
    (hrespond : ∀ u r, P u → P (u.respond r)) (h : P s) (hdone : barred = false → P done) : P t := by
  cases hport with
  | wrongMode => exact hrespond _ _ h
  | notActive => exact hrespond _ _ h
  | barred => exact hrespond _ _ h
  | done _ _ hb => exact hrespond _ _ (hdone hb)

/-- A port that answers OK has done its work. -/
theorem PortOutcome.done_of_ok (hport : PortOutcome mode ring barred bar data done s t) (hbar : bar ≠ .ok)
    {answered : BitVec 24} (hok : t.response = some (responseWord .ok false answered)) :
    barred = false ∧ answered = data ∧ ∃ r, t = done.respond r := by
  have hstatus : t.HasStatus .ok := (hasStatus_iff_of_response hok).2 rfl
  cases hport with
  | wrongMode => exact absurd (hasStatus_respond.1 hstatus) (by decide)
  | notActive => exact absurd (hasStatus_respond.1 hstatus) (by decide)
  | barred => exact absurd (hasStatus_respond.1 hstatus) hbar
  | done _ _ hb =>
    have hdata := congrArg dataField (Option.some.inj hok)
    rw [dataField_responseWord, dataField_responseWord] at hdata
    exact ⟨hb, hdata.symm, _, rfl⟩

end Ports

/-- Settles O34: a port that answers OK has put an item after the unread ones of its ring, or taken the oldest. -/
theorem portsAreFirstInFirstOut : Obligations.PortsAreFirstInFirstOut := by
  intro s t hsound
  have h := sound_iff_parts.1 hsound
  refine ⟨fun word hnext hok => ?_, fun byte hnext hok => ?_, fun data hnext hok => ?_, fun data hnext hok => ?_⟩
  · rcases (execPushw_next.1 hnext).2 with ⟨-, hport⟩ | ⟨-, rfl⟩
    · obtain ⟨hroom, -, r, rfl⟩ := hport.done_of_ok (by decide) hok
      exact ⟨h.unreadWords_putWord hroom word, rfl⟩
    · exact absurd (hasStatus_respond.1 ((hasStatus_iff_of_response hok).2 rfl)) (by decide)
  · obtain ⟨hroom, -, r, rfl⟩ := (execPushb_next.1 hnext).2.done_of_ok (by decide) hok
    exact ⟨h.unreadBytes_putByte hroom byte, rfl⟩
  · obtain ⟨hunread, rfl, r, rfl⟩ := (execPopb_next.1 hnext).2.done_of_ok (by decide) hok
    exact ⟨_, rfl, h.unreadBytes_takeByte hunread, rfl⟩
  · obtain ⟨hunread, rfl, r, rfl⟩ := (execPopw_next.1 hnext).2.done_of_ok (by decide) hok
    exact ⟨h.unreadWords_takeWord hunread, rfl⟩

/-! ### The Encoder fills the BitRing and drains the SampleRing -/

section EncoderRings

open RingView

theorem pushOrDrop_bitRing (d : Byte) (s : State) : s.bitRing.Filled (pushOrDrop d s).1.bitRing := by
  rcases pushOrDrop_cases d s with ⟨-, e⟩ | ⟨hroom, e⟩ <;> rw [e]
  · exact .none
  · exact State.filled_putByte hroom d

theorem countByte_bitRing (s : State) : s.bitRing.Filled (countByte s).1.bitRing := by
  rcases countByte_cases s with ⟨-, e⟩ | ⟨-, e⟩ <;> rw [e]
  · exact pushOrDrop_bitRing _ (s.withCount 0)
  · exact .none

theorem completeByte_bitRing (done : Bool) (k r : Nat) (s : State) :
    s.bitRing.Filled (completeByte done k r s).1.bitRing :=
  (pushOrDrop_bitRing _ (s.withAcc 0)).trans (countByte_bitRing _)

theorem placeBit_bitRing (slot : Cursor) (w : Word) (s : State) : (placeBit slot w s).1.bitRing = s.bitRing := by
  rcases placeBit_cases slot w s with ⟨-, e⟩ | ⟨-, e⟩ <;> rw [e] <;> rfl

theorem packBit_bitRing (slot : Cursor) (w : Word) (k : Nat) (s : State) :
    s.bitRing.Filled (packBit slot w k s).state.bitRing := by
  rw [← placeBit_bitRing slot w s]
  rcases packBit_cases slot w k s with ⟨-, e⟩ | ⟨-, e⟩ <;> rw [e]
  · exact completeByte_bitRing _ _ _ ((placeBit slot w s).1.withBit 0)
  · exact .none

theorem placeBit_srRd (slot : Cursor) (w : Word) (s : State) :
    (placeBit slot w s).1.srRd = s.srRd ∨ (placeBit slot w s).1.srRd = slot := by
  rcases placeBit_cases slot w s with ⟨-, e⟩ | ⟨-, e⟩ <;> rw [e]
  · exact .inr rfl
  · exact .inl rfl

theorem packBit_srRd (slot : Cursor) (w : Word) (k : Nat) (s : State) :
    (packBit slot w k s).state.srRd = s.srRd ∨ (packBit slot w k s).state.srRd = slot := by
  have hkeeps : (packBit slot w k s).state.srRd = (placeBit slot w s).1.srRd := by
    rcases packBit_cases slot w k s with ⟨-, e⟩ | ⟨-, e⟩ <;> rw [e]
    · exact (completeByte_pushKeeps _ _ _ _).srRd
    · rfl
  rw [hkeeps]
  exact placeBit_srRd slot w s

/-- The passes over one Word write bytes and at most consume that Word (R151, R154). -/
theorem encodeWord_bitRing_srRd (slot : Cursor) (w : Word) (fuel k : Nat) (s : State) :
    s.bitRing.Filled (encodeWord slot w fuel k s).1.bitRing ∧
      ((encodeWord slot w fuel k s).1.srRd = s.srRd ∨ (encodeWord slot w fuel k s).1.srRd = slot) := by
  induction fuel generalizing k s with
  | zero => exact ⟨.none, .inl rfl⟩
  | succ fuel ih =>
    have hbytes := packBit_bitRing slot w k s
    have hread := packBit_srRd slot w k s
    unfold encodeWord
    simp only
    split
    · split
      · exact ⟨hbytes, hread⟩
      · obtain ⟨hbytes', hread'⟩ := ih (packBit slot w k s).k (packBit slot w k s).state
        refine ⟨hbytes.trans hbytes', ?_⟩
        rcases hread' with e | e <;> rw [e]
        · exact hread
        · exact .inr rfl
    · exact ⟨hbytes, hread⟩

/-- What the Encoder does to the two rings (R151). -/
structure EncoderMoves (s t : State) : Prop where
  sample : s.sampleRing.Drained t.sampleRing
  bit : s.bitRing.Filled t.bitRing

theorem EncoderMoves.refl (s : State) : EncoderMoves s s := ⟨.none, .none⟩

theorem EncoderMoves.trans {s t u : State} (h : EncoderMoves s t) (k : EncoderMoves t u) : EncoderMoves s u :=
  ⟨h.sample.trans k.sample, h.bit.trans k.bit⟩

theorem EncoderKeeps.sampleRing {s t : State} (h : EncoderKeeps s t) :
    t.sampleRing = { s.sampleRing with rd := t.srRd } := by
  simp only [State.sampleRing, h.srBuf, h.srWr, h.cfg]

theorem encodeWord_moves (w : Word) (fuel k : Nat) {s : State} (hunread : s.emptyS = false) :
    EncoderMoves s (encodeWord s.nextReadS w fuel k s).1 := by
  obtain ⟨hbytes, hread⟩ := encodeWord_bitRing_srRd s.nextReadS w fuel k s
  refine ⟨?_, hbytes⟩
  rw [(encodeWord_keeps s.nextReadS w fuel k s).sampleRing]
  rcases hread with e | e <;> rw [e]
  · exact .none
  · exact State.drained_takeWord hunread

theorem encodeAll_moves (fuel : Nat) (s : State) : EncoderMoves s (encodeAll fuel s).1 := by
  induction fuel generalizing s with
  | zero => exact .refl s
  | succ fuel ih =>
    unfold encodeAll
    simp only
    split
    · exact .refl s
    · rename_i hempty
      have hword := encodeWord_moves (s.srBuf.read s.nextReadS.toNat) (s.cfg.wordBits - s.srBits.toNat) 0
        (Bool.eq_false_of_not_eq_true hempty)
      split
      · exact hword.trans (ih _)
      · exact hword

end EncoderRings

/-! ### The Decoder drains the BitRing -/

section DecoderRings

open RingView

variable {s : State}

theorem synchronize_rings (s : State) :
    (synchronize s).sampleRing = s.sampleRing ∧ s.bitRing.Drained (synchronize s).bitRing := by
  rcases synchronize_cases (s := s) with ⟨-, e⟩ | ⟨-, e⟩ <;> rw [e]
  · exact ⟨rfl, State.drained_discardBytes⟩
  · exact ⟨rfl, .none⟩

theorem ExtractKeeps.sampleRing {s t : State} (h : ExtractKeeps s t) : t.sampleRing = s.sampleRing := by
  simp only [State.sampleRing, h.srBuf, h.srWr, h.srRd, h.cfg]

theorem extractBit_bitRing (w : Word) (hunread : s.brWr ≠ s.brRd) : s.bitRing.Drained (extractBit w s).2.bitRing := by
  rcases extractBit_cases w s with ⟨-, e⟩ | ⟨-, e⟩ <;> rw [e]
  · exact Drained.none.take hunread
  · exact .none

theorem extractBits_bitRing (h : SoundParts s) (hstarted : s.started = true) (hm : s.cfg.mode = .receiver)
    (hsync : s.brSync = true) {n : Nat} (havail : n ≤ s.avail) (w : Word) :
    s.bitRing.Drained (extractBits n w s).2.bitRing := by
  induction n generalizing w s with
  | zero => exact .none
  | succ n ih =>
    have hdepth := depthB_ne_zero_of_avail havail
    have hunread : s.brWr ≠ s.brRd := mt (depth_eq_zero_iff _ _ h.brWr_lt h.brRd_lt).2 hdepth
    have hkeeps := extractBit_keeps w s
    exact (extractBit_bitRing w hunread).trans
      (ih (extractBit_parts h hstarted hm hsync hdepth w) (hkeeps.started.trans hstarted) (by rw [hkeeps.cfg, hm])
        (hkeeps.brSync.trans hsync) (extractBit_avail h havail w) _)

end DecoderRings

/-! ### No command fills and drains one ring -/

section CommandRings

open RingView

variable {s t : State}

/-- A ring was written to, or items were consumed from it, but not both. -/
inductive RingView.Moves {w : Nat} (r r' : RingView w) : Prop where
  | filled (h : r.Filled r')
  | drained (h : r.Drained r')

theorem RingView.Moves.keepsUnread {w : Nat} {r r' : RingView w} (h : r.Moves r') (hr : r.InRange) :
    r.KeepsUnread r' := by
  cases h with
  | filled h => exact h.keepsUnread hr
  | drained h => exact h.keepsUnread hr

/-- What one command may do to the two rings. -/
structure RingsMove (s t : State) : Prop where
  sample : s.sampleRing.Moves t.sampleRing
  bit : s.bitRing.Moves t.bitRing

theorem RingsMove.refl (s : State) : RingsMove s s := ⟨.filled .none, .filled .none⟩

theorem RingsMove.respond (h : RingsMove s t) (r : ResponseWord) : RingsMove s (t.respond r) := ⟨h.sample, h.bit⟩

theorem RingsMove.putWord (hroom : s.fullS = false) (w : Word) : RingsMove s (s.putWord w) :=
  ⟨.filled (State.filled_putWord hroom w), .filled .none⟩

theorem RingsMove.putByte (hroom : s.fullB = false) (b : Byte) : RingsMove s (s.putByte b) :=
  ⟨.filled .none, .filled (State.filled_putByte hroom b)⟩

theorem RingsMove.takeWord (hunread : s.emptyS = false) : RingsMove s s.takeWord :=
  ⟨.drained (State.drained_takeWord hunread), .filled .none⟩

theorem RingsMove.takeByte (hunread : s.emptyB = false) : RingsMove s s.takeByte :=
  ⟨.filled .none, .drained (State.drained_takeByte hunread)⟩

theorem encoderUpdate_rings (hnext : encoderUpdate s = .next t) : RingsMove s t := by
  obtain ⟨hwords, hbytes⟩ := encodeAll_moves s.depthS s
  rcases encoderUpdate_next.1 hnext with ⟨-, rfl⟩ | ⟨-, -, rfl⟩ | ⟨-, -, rfl⟩
  · exact (RingsMove.refl s).respond _
  · exact ⟨.drained hwords, .filled hbytes⟩
  · exact ⟨.drained hwords, .filled hbytes⟩

theorem extractWord_rings (h : SoundParts s) (hstarted : s.started = true) (hm : s.cfg.mode = .receiver)
    (hsync : s.brSync = true) (hnext : extractWord s = .next t) :
    s.sampleRing.Filled t.sampleRing ∧ s.bitRing.Drained t.bitRing := by
  rcases extractWord_next.1 hnext with ⟨-, rfl⟩ | ⟨havail, hpush⟩
  · exact ⟨.none, .none⟩
  · have hbytes := extractBits_bitRing h hstarted hm hsync havail 0
    rw [← (extractBits_keeps s.cfg.wordBits 0 s).sampleRing]
    rcases pushDecoded_next.1 hpush with ⟨-, rfl⟩ | ⟨hroom, rfl⟩
    · exact ⟨.none, hbytes⟩
    · exact ⟨State.filled_putWord hroom _, hbytes⟩

theorem decoderUpdate_rings (h : SoundParts s) (hstarted : s.started = true) (hm : s.cfg.mode = .receiver)
    (hnext : decoderUpdate s = .next t) : RingsMove s t := by
  obtain ⟨hwords, hbytes⟩ := synchronize_rings s
  rcases decoderUpdate_next.1 hnext with ⟨hsync, hword⟩ | ⟨-, rfl⟩
  · obtain ⟨hpushed, hread⟩ := extractWord_rings (synchronize_parts h hstarted hm) (synchronize_started.trans hstarted)
      (by rw [synchronize_cfg, hm]) hsync hword
    exact ⟨.filled (hwords ▸ hpushed), .drained (hbytes.trans hread)⟩
  · exact ⟨.filled (hwords ▸ .none), .drained (hbytes.trans State.drained_discardBytes)⟩

/-- What the commands that do not empty the rings may do to them (R76, R78). -/
theorem exec_rings (h : SoundParts s) {i : Instr} (hstart : i ≠ .start) (hrestart : i ≠ .restart)
    (hnext : exec i s = .next t) : RingsMove s t := by
  have hsame : RingsMove s s := .refl s
  cases i with
  | start => exact absurd rfl hstart
  | restart => exact absurd rfl hrestart
  | stop => rcases (execStop_next.1 hnext).2 with ⟨-, rfl⟩ | ⟨-, rfl⟩ <;> exact ⟨hsame.sample, hsame.bit⟩
  | update =>
    rcases (execUpdate_next.1 hnext).2 with ⟨-, rfl⟩ | ⟨-, -, -, henc⟩ | ⟨hactive, -, hm, hdec⟩
    · exact hsame.respond _
    · exact encoderUpdate_rings henc
    · exact decoderUpdate_rings h (h.started hactive) hm hdec
  | pushw word =>
    rcases (execPushw_next.1 hnext).2 with ⟨-, hport⟩ | ⟨-, rfl⟩
    · exact hport.preserves (fun _ r hu => hu.respond r) hsame fun hroom => .putWord hroom word
    · exact hsame.respond _
  | popw => exact (execPopw_next.1 hnext).2.preserves (fun _ r hu => hu.respond r) hsame .takeWord
  | pushb byte =>
    exact (execPushb_next.1 hnext).2.preserves (fun _ r hu => hu.respond r) hsame fun hroom => .putByte hroom byte
  | popb => exact (execPopb_next.1 hnext).2.preserves (fun _ r hu => hu.respond r) hsame .takeByte
  | rdreg reg => rcases (execRdreg_next.1 hnext).2 with ⟨-, rfl⟩ | ⟨-, rfl⟩ <;> exact hsame.respond _
  | peekw slot => rcases (execPeekw_next.1 hnext).2 with ⟨-, rfl⟩ | ⟨-, rfl⟩ <;> exact hsame.respond _
  | peekb slot => rcases (execPeekb_next.1 hnext).2 with ⟨-, rfl⟩ | ⟨-, rfl⟩ <;> exact hsame.respond _

end CommandRings

/-- Settles O35: a command fills or drains each ring, and neither loses an unread item. -/
theorem unreadItemsNeverOverwritten : Obligations.UnreadItemsNeverOverwritten := by
  intro s t i hsound hstart hrestart hnext
  have h := sound_iff_parts.1 hsound
  have hmoves := exec_rings h hstart hrestart hnext
  exact ⟨hmoves.sample.keepsUnread h.sampleRing, hmoves.bit.keepsUnread h.bitRing⟩

/-! ### The canonical form (log 12) -/

section CanonicalSteps

variable {s t : State}

theorem canonical_putWord (h : s.Canonical) (w : Word) : (s.putWord w).Canonical :=
  let ⟨hwords, hbytes⟩ := h
  ⟨Memory.wf_write _ w hwords, hbytes⟩

theorem canonical_putByte (h : s.Canonical) (b : Byte) : (s.putByte b).Canonical :=
  let ⟨hwords, hbytes⟩ := h
  ⟨hwords, Memory.wf_write _ b hbytes⟩

theorem startMarker_canonical (h : s.Canonical) (hnext : startMarker s = .next t) : t.Canonical := by
  rcases startMarker_next.1 hnext with ⟨-, -, rfl⟩ | ⟨-, -, rfl⟩ | ⟨-, rfl⟩
  · exact canonical_putByte (s := s.withCount 0) h _
  · exact h
  · exact h

theorem encodeAll_canonical (h : s.Canonical) (fuel : Nat) : (encodeAll fuel s).1.Canonical := by
  obtain ⟨hwords, hbytes⟩ := h
  exact ⟨by rw [(encodeAll_keeps fuel s).srBuf]; exact hwords, (encodeAll_moves fuel s).bit.wf hbytes⟩

theorem encoderUpdate_canonical (h : s.Canonical) (hnext : encoderUpdate s = .next t) : t.Canonical := by
  rcases encoderUpdate_next.1 hnext with ⟨-, rfl⟩ | ⟨-, -, rfl⟩ | ⟨-, -, rfl⟩
  · exact h
  · exact encodeAll_canonical h _
  · exact encodeAll_canonical h _

theorem extractWord_canonical (h : s.Canonical) (hnext : extractWord s = .next t) : t.Canonical := by
  have hkeeps := extractBits_keeps s.cfg.wordBits 0 s
  have hread : (extractBits s.cfg.wordBits 0 s).2.Canonical := by rwa [State.Canonical, hkeeps.srBuf, hkeeps.brBuf]
  rcases extractWord_next.1 hnext with ⟨-, rfl⟩ | ⟨-, hpush⟩
  · exact h
  · rcases pushDecoded_next.1 hpush with ⟨-, rfl⟩ | ⟨-, rfl⟩
    · exact hread
    · exact canonical_putWord hread _

theorem decoderUpdate_canonical (h : s.Canonical) (hnext : decoderUpdate s = .next t) : t.Canonical := by
  have hphase : (synchronize s).Canonical := by
    rcases synchronize_cases (s := s) with ⟨-, e⟩ | ⟨-, e⟩ <;> rw [e] <;> exact h
  rcases decoderUpdate_next.1 hnext with ⟨-, hword⟩ | ⟨-, rfl⟩
  · exact extractWord_canonical hphase hword
  · exact hphase

theorem exec_canonical (h : s.Canonical) {i : Instr} (hnext : exec i s = .next t) : t.Canonical := by
  cases i with
  | start =>
    rcases (execStart_next.1 hnext).2 with ⟨-, rfl⟩ | ⟨-, -, rfl⟩ | ⟨-, -, hmark⟩
    · exact h
    · exact h
    · exact startMarker_canonical ⟨Memory.wf_zeroed, Memory.wf_zeroed⟩ hmark
  | stop => rcases (execStop_next.1 hnext).2 with ⟨-, rfl⟩ | ⟨-, rfl⟩ <;> exact h
  | restart =>
    rcases (execRestart_next.1 hnext).2 with ⟨-, hmark⟩ | ⟨-, rfl⟩
    · exact startMarker_canonical (s := s.clearCursors.activate) h hmark
    · exact h
  | update =>
    rcases (execUpdate_next.1 hnext).2 with ⟨-, rfl⟩ | ⟨-, -, -, henc⟩ | ⟨-, -, -, hdec⟩
    · exact h
    · exact encoderUpdate_canonical h henc
    · exact decoderUpdate_canonical h hdec
  | pushw word =>
    rcases (execPushw_next.1 hnext).2 with ⟨-, hport⟩ | ⟨-, rfl⟩
    · exact hport.preserves (P := State.Canonical) (fun _ _ hu => hu) h fun _ => canonical_putWord h word
    · exact h
  | popw => exact (execPopw_next.1 hnext).2.preserves (P := State.Canonical) (fun _ _ hu => hu) h fun _ => h
  | pushb byte =>
    exact (execPushb_next.1 hnext).2.preserves (P := State.Canonical) (fun _ _ hu => hu) h
      fun _ => canonical_putByte h byte
  | popb => exact (execPopb_next.1 hnext).2.preserves (P := State.Canonical) (fun _ _ hu => hu) h fun _ => h
  | rdreg reg => rcases (execRdreg_next.1 hnext).2 with ⟨-, rfl⟩ | ⟨-, rfl⟩ <;> exact h
  | peekw slot => rcases (execPeekw_next.1 hnext).2 with ⟨-, rfl⟩ | ⟨-, rfl⟩ <;> exact h
  | peekb slot => rcases (execPeekb_next.1 hnext).2 with ⟨-, rfl⟩ | ⟨-, rfl⟩ <;> exact h

end CanonicalSteps

/-- Settles O15: after reset no slot is listed, and a command changes a buffer by writes and zero-fill alone. -/
theorem stepKeepsCanonicalForm : Obligations.StepKeepsCanonicalForm := by
  intro s t h hnext
  rcases step_cases hnext with
    ⟨-, -, rfl⟩ | ⟨-, -, -, rfl⟩ | ⟨-, w, rest, i, -, -, hexec⟩ | ⟨-, w, rest, e, -, -, -, rfl⟩
  · exact ⟨Memory.wf_nil _, Memory.wf_nil _⟩
  · exact h
  · exact exec_canonical (s := s.withPending rest) h hexec
  · exact h

end Sys2Proof.Machine

/-! ## Command words, responses and assembler lines (30_encoding.md R100 to R111)

A command word is told by its two fields, and the opcode map is said once, one lemma per operand format; decoding,
encoding and the illegal words follow. -/

namespace Sys2Proof.Machine

section Fields

/-- Putting a value above `k` bits that it leaves free adds the two numbers. -/
theorem toNat_shiftLeft_or {n k : Nat} (a b : BitVec n) (ha : a.toNat * 2 ^ k < 2 ^ n) (hb : b.toNat < 2 ^ k) :
    (a <<< k ||| b).toNat = a.toNat * 2 ^ k + b.toNat := by
  rw [BitVec.toNat_or, BitVec.toNat_shiftLeft, Nat.shiftLeft_eq, Nat.mod_eq_of_lt ha, ← Nat.shiftLeft_eq,
    ← Nat.shiftLeft_add_eq_or_of_lt hb]

/-- Where `OP` and `OPND` stand in the word of a command (R100). -/
theorem toNat_encode (i : Instr) : (encode i).toNat = (opcode i).toNat * 2 ^ 24 + (operand i).toNat := by
  have hop : ((opcode i).setWidth 32).toNat = (opcode i).toNat := BitVec.toNat_setWidth_of_le (by decide)
  have hopnd : ((operand i).setWidth 32).toNat = (operand i).toNat := BitVec.toNat_setWidth_of_le (by decide)
  rw [encode, toNat_shiftLeft_or _ _ (by omega) (by omega), hop, hopnd]

/-- `OP << 24 | value`, as R110 writes the word of a command. -/
theorem encode_eq_ofNat {i : Instr} {value : Nat} (h : (operand i).toNat = value) :
    encode i = BitVec.ofNat 32 ((opcode i).toNat * 2 ^ 24 + value) := by
  rw [← h, ← toNat_encode, BitVec.ofNat_toNat, BitVec.setWidth_eq]

theorem toNat_opField (w : CommandWord) : (opField w).toNat = w.toNat / 2 ^ 24 := by
  rw [opField, BitVec.extractLsb'_toNat, Nat.shiftRight_eq_div_pow]
  omega

theorem toNat_opndField (w : CommandWord) : (opndField w).toNat = w.toNat % 2 ^ 24 := by
  simp [opndField]

@[simp] theorem opField_encode (i : Instr) : opField (encode i) = opcode i := by
  apply BitVec.eq_of_toNat_eq
  rw [toNat_opField, toNat_encode]
  omega

@[simp] theorem opndField_encode (i : Instr) : opndField (encode i) = operand i := by
  apply BitVec.eq_of_toNat_eq
  rw [toNat_opndField, toNat_encode]
  omega

/-- A word is the encoding of the command whose opcode and operand are its two fields. -/
theorem encode_eq_of_fields {w : CommandWord} {i : Instr} (hop : opcode i = opField w)
    (hopnd : operand i = opndField w) : encode i = w := by
  apply BitVec.eq_of_toNat_eq
  rw [toNat_encode, hop, hopnd, toNat_opField, toNat_opndField]
  omega

/-- Where `DATA`, `READY` and `STATUS` stand in a response (R104). -/
theorem toNat_responseWord (st : Status) (ready : Bool) (data : BitVec 24) :
    (responseWord st ready data).toNat = data.toNat * 2 ^ 8 + ready.toNat * 2 ^ 4 + (statusCode st).toNat := by
  have hdata : (data.setWidth 32).toNat = data.toNat := BitVec.toNat_setWidth_of_le (by decide)
  have hready : ((BitVec.ofBool ready).setWidth 32).toNat = ready.toNat := by cases ready <;> rfl
  have hcode : ((statusCode st).setWidth 32).toNat = (statusCode st).toNat := BitVec.toNat_setWidth_of_le (by decide)
  have hbool : ready.toNat ≤ 1 := Bool.toNat_le ready
  have hlow : ((BitVec.ofBool ready).setWidth 32 <<< 4 ||| (statusCode st).setWidth 32).toNat =
      ready.toNat * 2 ^ 4 + (statusCode st).toNat := by
    rw [toNat_shiftLeft_or _ _ (by omega) (by omega), hready, hcode]
  rw [responseWord, BitVec.or_assoc, toNat_shiftLeft_or _ _ (by omega) (by omega), hlow, hdata, Nat.add_assoc]

end Fields

section Formats

variable {opnd : BitVec 24} {i : Instr}

/-- A value field of `k` bits shows the whole of `OPND` exactly where the reserved bits above it are 0 (R101, R102). -/
theorem setWidth_eq_operand_iff {k m : Nat} (hkm : k + m = 24) {v : BitVec k} :
    v.setWidth 24 = opnd ↔ opnd.extractLsb' k m = 0 ∧ opnd.extractLsb' 0 k = v := by
  constructor
  · rintro rfl
    constructor <;> apply BitVec.eq_of_getLsbD_eq <;> intro j hj
    · simp
    · simp [hj, show j < 24 by omega]
  · rintro ⟨hzero, rfl⟩
    apply BitVec.eq_of_getLsbD_eq
    intro j hj
    by_cases hlow : j < k
    · simp [hlow, hj]
    · have hbit : (opnd.extractLsb' k m).getLsbD (j - k) = opnd.getLsbD j := by
        rw [BitVec.getLsbD_extractLsb', Nat.add_sub_cancel' (by omega), decide_eq_true (by omega), Bool.true_and]
      simp [hlow, ← hbit, hzero]

/-- Format N names its one command where all of `OPND` is 0. -/
theorem decodeN_eq_command {j : Instr} : decodeN opnd i = .command j ↔ opnd = 0 ∧ i = j := by
  unfold decodeN
  split <;> simp_all

/-- Formats B and R name the command of the byte that `OPND` extends. -/
theorem decodeB_eq_command {f : BitVec 8 → Instr} :
    decodeB opnd f = .command i ↔ ∃ v : BitVec 8, v.setWidth 24 = opnd ∧ f v = i := by
  simp only [setWidth_eq_operand_iff (show 8 + 16 = 24 from rfl), decodeB]
  split <;> simp_all

/-- Format S names the command of the slot index that `OPND` extends. -/
theorem decodeS_eq_command {f : BitVec 16 → Instr} :
    decodeS opnd f = .command i ↔ ∃ v : BitVec 16, v.setWidth 24 = opnd ∧ f v = i := by
  simp only [setWidth_eq_operand_iff (show 16 + 8 = 24 from rfl), decodeS]
  split <;> simp_all

/-- A defined `OP` is never answered as a reserved one, whatever its format. -/
theorem decodeN_ne_reservedOp : decodeN opnd i ≠ .illegal .reservedOp := by
  unfold decodeN
  split <;> simp

theorem decodeB_ne_reservedOp {f : BitVec 8 → Instr} : decodeB opnd f ≠ .illegal .reservedOp := by
  unfold decodeB
  split <;> simp

theorem decodeS_ne_reservedOp {f : BitVec 16 → Instr} : decodeS opnd f ≠ .illegal .reservedOp := by
  unfold decodeS
  split <;> simp

end Formats

section OpcodeMap

variable {op : BitVec 8}

/-- The `OP` values of format N (R103). -/
abbrev formatNOps : List Nat := [0x01, 0x02, 0x03, 0x04, 0x11, 0x13]

/-- The `OP` values of formats B and R (R103). -/
abbrev formatBOps : List Nat := [0x12, 0x20]

/-- The `OP` values of format S (R103). -/
abbrev formatSOps : List Nat := [0x21, 0x22]

/-- The reserved `OP` values (R106). -/
abbrev ReservedOp (op : Nat) : Prop :=
  op = 0 ∨ (0x05 ≤ op ∧ op ≤ 0x0F) ∨ (0x14 ≤ op ∧ op ≤ 0x1F) ∨ 0x23 ≤ op

/-- Every `OP` value is reserved or has a row of the opcode map (R108). -/
theorem op_cases (op : Nat) :
    op ∈ formatNOps ∨ op = 0x10 ∨ op ∈ formatBOps ∨ op ∈ formatSOps ∨ ReservedOp op := by
  simp only [List.mem_cons, List.not_mem_nil, or_false]
  omega

/-- The rows of format N: the opcode is the command's own, and it has no operand. -/
theorem decodeFields_of_formatN (h : op.toNat ∈ formatNOps) :
    ∃ i, opcode i = op ∧ operand i = 0 ∧ ∀ opnd, decodeFields op opnd = decodeN opnd i := by
  simp only [List.mem_cons, List.not_mem_nil, or_false, BitVec.toNat_eq_nat] at h
  rcases h with ⟨-, rfl⟩ | ⟨-, rfl⟩ | ⟨-, rfl⟩ | ⟨-, rfl⟩ | ⟨-, rfl⟩ | ⟨-, rfl⟩
  · exact ⟨.start, rfl, rfl, fun _ => rfl⟩
  · exact ⟨.stop, rfl, rfl, fun _ => rfl⟩
  · exact ⟨.restart, rfl, rfl, fun _ => rfl⟩
  · exact ⟨.update, rfl, rfl, fun _ => rfl⟩
  · exact ⟨.popw, rfl, rfl, fun _ => rfl⟩
  · exact ⟨.popb, rfl, rfl, fun _ => rfl⟩

/-- The row of format W, which has no reserved bit. -/
theorem decodeFields_of_formatW (h : op.toNat = 0x10) (opnd : BitVec 24) :
    decodeFields op opnd = .command (.pushw opnd) := by
  obtain rfl : op = 0x10 := BitVec.eq_of_toNat_eq h
  rfl

/-- The rows of formats B and R: the operand is the command's byte. -/
theorem decodeFields_of_formatB (h : op.toNat ∈ formatBOps) :
    ∃ f : BitVec 8 → Instr, (∀ v, opcode (f v) = op ∧ operand (f v) = v.setWidth 24) ∧
      ∀ opnd, decodeFields op opnd = decodeB opnd f := by
  simp only [List.mem_cons, List.not_mem_nil, or_false, BitVec.toNat_eq_nat] at h
  rcases h with ⟨-, rfl⟩ | ⟨-, rfl⟩
  · exact ⟨.pushb, fun _ => ⟨rfl, rfl⟩, fun _ => rfl⟩
  · exact ⟨.rdreg, fun _ => ⟨rfl, rfl⟩, fun _ => rfl⟩

/-- The rows of format S: the operand is the command's slot index. -/
theorem decodeFields_of_formatS (h : op.toNat ∈ formatSOps) :
    ∃ f : BitVec 16 → Instr, (∀ v, opcode (f v) = op ∧ operand (f v) = v.setWidth 24) ∧
      ∀ opnd, decodeFields op opnd = decodeS opnd f := by
  simp only [List.mem_cons, List.not_mem_nil, or_false, BitVec.toNat_eq_nat] at h
  rcases h with ⟨-, rfl⟩ | ⟨-, rfl⟩
  · exact ⟨.peekw, fun _ => ⟨rfl, rfl⟩, fun _ => rfl⟩
  · exact ⟨.peekb, fun _ => ⟨rfl, rfl⟩, fun _ => rfl⟩

theorem decodeFields_of_reservedOp (h : ReservedOp op.toNat) (opnd : BitVec 24) :
    decodeFields op opnd = .illegal .reservedOp := by
  have hne : ∀ code : BitVec 8, ¬ ReservedOp code.toNat → op ≠ code := by
    rintro code hcode rfl
    exact hcode h
  rw [decodeFields, if_neg (hne 0x01 (by decide)), if_neg (hne 0x02 (by decide)), if_neg (hne 0x03 (by decide)),
    if_neg (hne 0x04 (by decide)), if_neg (hne 0x10 (by decide)), if_neg (hne 0x11 (by decide)),
    if_neg (hne 0x12 (by decide)), if_neg (hne 0x13 (by decide)), if_neg (hne 0x20 (by decide)),
    if_neg (hne 0x21 (by decide)), if_neg (hne 0x22 (by decide))]

/-- Two fields name a command exactly where they are its opcode and its operand (R103, R108). -/
theorem decodeFields_eq_command {opnd : BitVec 24} {i : Instr} :
    decodeFields op opnd = .command i ↔ opcode i = op ∧ operand i = opnd := by
  constructor
  · intro h
    rcases op_cases op.toNat with hN | hW | hB | hS | hreserved
    · obtain ⟨j, hop, hopnd, hrow⟩ := decodeFields_of_formatN hN
      obtain ⟨rfl, rfl⟩ := decodeN_eq_command.1 ((hrow opnd).symm.trans h)
      exact ⟨hop, hopnd⟩
    · obtain rfl := Decoded.command.inj ((decodeFields_of_formatW hW opnd).symm.trans h)
      exact ⟨BitVec.eq_of_toNat_eq hW.symm, rfl⟩
    · obtain ⟨f, hf, hrow⟩ := decodeFields_of_formatB hB
      obtain ⟨v, rfl, rfl⟩ := decodeB_eq_command.1 ((hrow opnd).symm.trans h)
      exact hf v
    · obtain ⟨f, hf, hrow⟩ := decodeFields_of_formatS hS
      obtain ⟨v, rfl, rfl⟩ := decodeS_eq_command.1 ((hrow opnd).symm.trans h)
      exact hf v
    · exact absurd ((decodeFields_of_reservedOp hreserved opnd).symm.trans h) nofun
  · rintro ⟨rfl, rfl⟩
    cases i with
    | start | stop | restart | update | popw | popb => exact decodeN_eq_command.2 ⟨rfl, rfl⟩
    | pushw word => rfl
    | pushb byte => exact decodeB_eq_command.2 ⟨byte, rfl, rfl⟩
    | rdreg reg => exact decodeB_eq_command.2 ⟨reg, rfl, rfl⟩
    | peekw slot => exact decodeS_eq_command.2 ⟨slot, rfl, rfl⟩
    | peekb slot => exact decodeS_eq_command.2 ⟨slot, rfl, rfl⟩

/-- An `OP` value is answered as reserved exactly in R106's ranges. -/
theorem decodeFields_eq_reservedOp {opnd : BitVec 24} :
    decodeFields op opnd = .illegal .reservedOp ↔ ReservedOp op.toNat := by
  refine ⟨fun h => ?_, fun h => decodeFields_of_reservedOp h opnd⟩
  rcases op_cases op.toNat with hN | hW | hB | hS | hreserved
  · obtain ⟨i, -, -, hrow⟩ := decodeFields_of_formatN hN
    exact absurd ((hrow opnd).symm.trans h) decodeN_ne_reservedOp
  · exact absurd ((decodeFields_of_formatW hW opnd).symm.trans h) nofun
  · obtain ⟨f, -, hrow⟩ := decodeFields_of_formatB hB
    exact absurd ((hrow opnd).symm.trans h) decodeB_ne_reservedOp
  · obtain ⟨f, -, hrow⟩ := decodeFields_of_formatS hS
    exact absurd ((hrow opnd).symm.trans h) decodeS_ne_reservedOp
  · exact hreserved

end OpcodeMap

section Words

variable {w : CommandWord} {i : Instr}

/-- A word names a command exactly where it is the command's encoding (R108). -/
theorem decode_eq_command_iff : decode w = .command i ↔ encode i = w := by
  rw [decode, decodeFields_eq_command]
  constructor
  · rintro ⟨hop, hopnd⟩
    exact encode_eq_of_fields hop hopnd
  · rintro rfl
    exact ⟨(opField_encode i).symm, (opndField_encode i).symm⟩

theorem decode_encode (i : Instr) : decode (encode i) = .command i := decode_eq_command_iff.2 rfl

/-- A word of format N with a bit of `OPND` set. -/
theorem decode_of_reserved_formatN (hop : w.toNat / 2 ^ 24 ∈ formatNOps) (hbits : w.toNat % 2 ^ 24 ≠ 0) :
    decode w = .illegal .reservedBits := by
  obtain ⟨i, -, -, hrow⟩ := decodeFields_of_formatN (op := opField w) (by rwa [toNat_opField])
  have hopnd : opndField w ≠ 0 := fun h => hbits (by rw [← toNat_opndField, h]; rfl)
  rw [decode, hrow, decodeN, if_neg hopnd]

/-- The part of `OPND` from bit `k` to its top, as a number. -/
theorem toNat_extractLsb'_opndField (w : CommandWord) {k m : Nat} (hkm : k + m = 24) :
    ((opndField w).extractLsb' k m).toNat = w.toNat / 2 ^ k % 2 ^ m := by
  rw [BitVec.extractLsb'_toNat, Nat.shiftRight_eq_div_pow, toNat_opndField, ← hkm, pow_add,
    Nat.mod_mul_right_div_self, Nat.mod_mod]

/-- A word of format B or R with a bit of `OPND[23:8]` set. -/
theorem decode_of_reserved_formatB (hop : w.toNat / 2 ^ 24 ∈ formatBOps) (hbits : w.toNat / 2 ^ 8 % 2 ^ 16 ≠ 0) :
    decode w = .illegal .reservedBits := by
  obtain ⟨f, -, hrow⟩ := decodeFields_of_formatB (op := opField w) (by rwa [toNat_opField])
  have hopnd : (opndField w).extractLsb' 8 16 ≠ 0 := fun h =>
    hbits (by rw [← toNat_extractLsb'_opndField w rfl, h]; rfl)
  rw [decode, hrow, decodeB, if_neg hopnd]

/-- A word of format S with a bit of `OPND[23:16]` set. -/
theorem decode_of_reserved_formatS (hop : w.toNat / 2 ^ 24 ∈ formatSOps) (hbits : w.toNat / 2 ^ 16 % 2 ^ 8 ≠ 0) :
    decode w = .illegal .reservedBits := by
  obtain ⟨f, -, hrow⟩ := decodeFields_of_formatS (op := opField w) (by rwa [toNat_opField])
  have hopnd : (opndField w).extractLsb' 16 8 ≠ 0 := fun h =>
    hbits (by rw [← toNat_extractLsb'_opndField w rfl, h]; rfl)
  rw [decode, hrow, decodeS, if_neg hopnd]

/-- A step that takes a word that names no command (R106, R107 item 1). -/
theorem step_of_decode_illegal {s : State} {rest : List CommandWord} {why : Illegal} (hc : s.cfg.WellFormed)
    (hreset : s.resetLine = false) (hpending : s.pending = w :: rest) (hw : decode w = .illegal why) :
    step s = .next ((s.withPending rest).respond (responseWord .illegal false 0)) := by
  have htake : take s = .illegal rest := by simp [take, hreset, hpending, hw]
  rw [step, htake]
  exact illegalCommand_next.2 ⟨hc, rfl⟩

end Words

/-- Settles O1: the two fields of the encoding are the command's opcode and operand. -/
theorem decodeInvertsEncode : Obligations.DecodeInvertsEncode := decode_encode

/-- Settles O2: both halves are the two directions of `decode_eq_command_iff`. -/
theorem encodeInvertsDecode : Obligations.EncodeInvertsDecode := by
  intro w i h
  refine ⟨decode_eq_command_iff.1 h, fun j hj => ?_⟩
  exact Decoded.command.inj ((decode_eq_command_iff.2 hj).symm.trans h)

/-- Settles O3: each word is the encoding of its command; 0x00 is a reserved `OP`. -/
theorem specWordsDecode : Obligations.SpecWordsDecode :=
  ⟨decode_encode .start, decode_encode .stop, decode_encode .restart, decode_encode .update,
    decode_encode (.pushw 0x0AB), decode_encode .popw, decode_encode (.pushb 0xFF), decode_encode .popb,
    decode_encode (.rdreg 8), decode_encode (.peekw 1), decode_encode (.peekb 3),
    decodeFields_of_reservedOp (.inl rfl) _⟩

/-- Settles O4: R106's ranges are the values the opcode map has no row for. -/
theorem reservedOpAnswersIllegal : Obligations.ReservedOpAnswersIllegal := by
  intro w op reserved
  have hdecode : decode w = .illegal .reservedOp ↔ reserved := by
    rw [decode, decodeFields_eq_reservedOp, toNat_opField]
  exact ⟨hdecode, fun h s rest hc hreset hpending => step_of_decode_illegal hc hreset hpending (hdecode.2 h)⟩

/-- Settles O5: item 1 of R107 is the decoder's, by format; items 2 to 4 are the first check of the meanings. -/
theorem illegalOperandAnswersIllegal : Obligations.IllegalOperandAnswersIllegal := by
  intro s hc
  refine ⟨fun w rest hreset hpending h => ?_, fun word h => ?_, fun reg h => ?_, fun slot h => ?_, fun slot h => ?_⟩
  · have hdecode : decode w = .illegal .reservedBits := by
      rcases h with ⟨hop, hbits⟩ | ⟨hop, hbits⟩ | ⟨hop, hbits⟩
      · exact decode_of_reserved_formatN hop hbits
      · exact decode_of_reserved_formatB hop hbits
      · exact decode_of_reserved_formatS hop hbits
    exact step_of_decode_illegal hc hreset hpending hdecode
  · exact execPushw_next.2 ⟨hc, .inr ⟨decide_eq_false h.not_gt, rfl⟩⟩
  · exact execRdreg_next.2 ⟨hc, .inr ⟨decide_eq_false h.not_ge, rfl⟩⟩
  · exact execPeekw_next.2 ⟨hc, .inr ⟨decide_eq_false h.not_gt, rfl⟩⟩
  · exact execPeekb_next.2 ⟨hc, .inr ⟨decide_eq_false h.not_gt, rfl⟩⟩

section Assembler

variable {c : Config}

/-- A command's line is accepted exactly where its value is legal in the build (R110). -/
theorem assemble_command (i : Instr) :
    assemble c (.command i) = if i.wellFormed c then some [encode i] else none := by
  simp [assemble, asmModeLegal, expand]

/-- FEED is PUSHW and UPDATE, in Emitter mode (R111; log 16). -/
theorem assemble_feed (word : Word) :
    assemble c (.feed word) =
      if c.mode = .emitter ∧ word.toNat < 2 ^ c.wordBits then some [encode (.pushw word), encode .update]
      else none := by
  simp [assemble, asmModeLegal, expand, Instr.wellFormed]

/-- RECV is PUSHB and UPDATE, in Receiver mode (R111; log 16). -/
theorem assemble_recv (byte : Byte) :
    assemble c (.recv byte) =
      if c.mode = .receiver then some [encode (.pushb byte), encode .update] else none := by
  simp [assemble, asmModeLegal, expand, Instr.wellFormed]

/-- The word of a command with an operand, where its legality in the build is the test `P` (R107, R110). -/
theorem assemble_operand {i : Instr} {value : Nat} {P : Prop} [Decidable P] (hvalue : (operand i).toNat = value)
    (hlegal : i.wellFormed c = decide P) :
    assemble c (.command i) =
      if P then some [BitVec.ofNat 32 ((opcode i).toNat * 2 ^ 24 + value)] else none := by
  simp only [assemble_command, hlegal, decide_eq_true_eq, encode_eq_ofNat hvalue]

/-- Every word of a line is the encoding of a command that is legal in the build. -/
theorem mem_assemble {l : AsmLine} {ws : List CommandWord} (h : assemble c l = some ws) {w : CommandWord}
    (hw : w ∈ ws) : ∃ i, encode i = w ∧ i.wellFormed c = true := by
  unfold assemble at h
  split at h
  next hlegal =>
    obtain rfl := Option.some.inj h
    obtain ⟨i, hi, rfl⟩ := List.mem_map.1 hw
    obtain ⟨-, hall⟩ := Bool.and_eq_true_iff.1 hlegal
    exact ⟨i, rfl, List.all_eq_true.1 hall i hi⟩
  next => cases h

/-- A text of a mnemonic and an operand that stands for a line is assembled as that line. -/
theorem assembleText_of_tokens {text m x : List Char} {l : AsmLine} (htokens : tokens [] (beforeComment text) = [m, x])
    (hline : operandLine m x = some l) : assembleText c text = assemble c l := by
  simp [assembleText, htokens, hline]

/-- The Word 0x0AB of R110's example needs 8 bits. -/
theorem example_word_legal_iff (n : Nat) : (0x0AB : Word).toNat < 2 ^ n ↔ 8 ≤ n := by
  constructor
  · intro h
    by_contra hn
    have hpow : 2 ^ n ≤ 2 ^ 7 := Nat.pow_le_pow_right (by decide) (by omega)
    exact absurd (h.trans_le hpow) (by decide)
  · intro hn
    exact Nat.lt_of_lt_of_le (by decide) (Nat.pow_le_pow_right (by decide) hn)

end Assembler

/-- Settles O6: a line's words are encodings, and R110's texts are read as the lines they show. -/
theorem assemblerMakesLegalWords : Obligations.AssemblerMakesLegalWords := by
  intro c
  have hbyte (v : BitVec 8) : (v.setWidth 24).toNat = v.toNat := BitVec.toNat_setWidth_of_le (by decide)
  have hslot (v : BitVec 16) : (v.setWidth 24).toNat = v.toNat := BitVec.toNat_setWidth_of_le (by decide)
  have hpushw (word : Word) := assemble_operand (c := c) (i := .pushw word) rfl rfl
  have hpushb (byte : Byte) := assemble_operand (c := c) (i := .pushb byte) (P := True) (hbyte byte) rfl
  have hpeekb (slot : BitVec 16) := assemble_operand (c := c) (i := .peekb slot) (hslot slot) rfl
  refine ⟨rfl, rfl, rfl, rfl, rfl, rfl, hpushw, hpushb,
    fun reg => assemble_operand (hbyte reg) rfl, fun slot => assemble_operand (hslot slot) rfl, hpeekb,
    fun word => ?_, fun byte => ?_, ?_, ?_, ?_, ?_, fun l ws h w hw => ?_⟩
  · rw [assemble_feed, encode_eq_ofNat (i := .pushw word) rfl]
    rfl
  · rw [assemble_recv, encode_eq_ofNat (i := .pushb byte) (hbyte byte)]
    rfl
  · rw [assembleText_of_tokens (m := "PUSHW".toList) (x := "0x0AB".toList) (l := .command (.pushw 0x0AB))
      (by decide) (by decide), hpushw]
    simp only [example_word_legal_iff]
    rfl
  · exact assembleText_of_tokens (m := "PUSHB".toList) (x := "0xFF".toList) (l := .command (.pushb 0xFF))
      (by decide) (by decide)
  · exact assembleText_of_tokens (m := "RDREG".toList) (x := "BR_WR".toList) (l := .command (.rdreg 8))
      (by decide) (by decide)
  · rw [assembleText_of_tokens (m := "PEEKB".toList) (x := "3".toList) (l := .command (.peekb 3))
      (by decide) (by decide), hpeekb]
    rfl
  · obtain ⟨i, rfl, hlegal⟩ := mem_assemble h hw
    exact ⟨i, decode_encode i, hlegal⟩

/-- Settles O56: no two fields of the response share a bit. -/
theorem responseFieldsStandInPlace : Obligations.ResponseFieldsStandInPlace :=
  ⟨toNat_responseWord, rfl, rfl, rfl, rfl, rfl, rfl, rfl, rfl, rfl, rfl, rfl, rfl⟩

end Sys2Proof.Machine

/-! ## Session commands (40_session.md R130 to R139)

START and RESTART rewind the same way: the cleared cursors leave the BitRing room for the marker, so that the state they
open a session in is one function of the state they rewind. -/

namespace Sys2Proof.Machine

section SessionCommands

variable {s t : State}

/-- The state after a rewind: every cursor, counter and flag 0, both rings Active, and in Emitter mode the marker put at
slot 1 (R132, R138, R159). -/
def State.openSession (s : State) : State :=
  match s.cfg.mode with
  | .emitter => { s.clearCursors.activate with brWr := 1, brBuf := s.brBuf.write 1 s.cfg.syncSignal }
  | .receiver => s.clearCursors.activate

/-- The slot after slot 0 is slot 1 in a ring of legal capacity (R73). -/
theorem inc_zero_of_bounds {cap : Nat} (h : 2 ≤ cap ∧ cap ≤ 65535) : inc 0 cap = 1 := by
  apply BitVec.eq_of_toNat_eq
  rw [toNat_inc 0 (by omega) (by omega)]
  exact Nat.mod_eq_of_lt (by simpa using show 1 < cap by omega)

/-- On cleared cursors the marker always goes in (R133, R159). -/
theorem startMarker_clearCursors (hc : s.cfg.WellFormed) :
    startMarker s.clearCursors.activate = .next (s.openSession.respond (responseWord .ok false 0)) := by
  obtain ⟨-, -, -, hcap, -⟩ := hc
  have hslot : s.clearCursors.activate.nextWriteB = 1 := inc_zero_of_bounds hcap
  have hroom : s.clearCursors.activate.fullB = false := fullB_eq_false_iff.2 (by simp [hslot])
  rw [startMarker_next]
  cases hm : s.cfg.mode with
  | emitter =>
    refine .inl ⟨hm, hroom, ?_⟩
    have hput : (s.clearCursors.activate.withCount 0).nextWriteB = 1 := hslot
    rw [State.putByte, hput, State.openSession, hm]
    rfl
  | receiver => exact .inr (.inr ⟨hm, by simp [State.openSession, hm]⟩)

/-- START opens a session on zeroed buffers, or answers one of its two checks (R131, R132). -/
theorem execStart_next_openSession :
    execStart s = .next t ↔ s.cfg.WellFormed ∧
      ((s.srState = .active ∧ t = s.respond (responseWord .stateError false 0)) ∨
       (s.srState ≠ .active ∧ s.cfg.capB < 1 + wordBytes s.cfg ∧ t = s.respond (responseWord .configError false 0)) ∨
       (s.srState ≠ .active ∧ 1 + wordBytes s.cfg ≤ s.cfg.capB ∧
         t = s.zeroFill.markStarted.openSession.respond (responseWord .ok false 0))) := by
  rw [execStart_next]
  refine and_congr_right fun hc => ?_
  have hmark : startMarker s.zeroFill.clearCursors.activate.markStarted =
      .next (s.zeroFill.markStarted.openSession.respond (responseWord .ok false 0)) :=
    startMarker_clearCursors (s := s.zeroFill.markStarted) hc
  rw [hmark, Host.Outcome.next.injEq, eq_comm (b := t)]

/-- RESTART opens a session on the buffers as they are, or answers NOT_STARTED (R138). -/
theorem execRestart_next_openSession :
    execRestart s = .next t ↔ s.cfg.WellFormed ∧
      ((s.started = true ∧ t = s.openSession.respond (responseWord .ok false 0)) ∨
       (s.started = false ∧ t = s.respond (responseWord .notStarted false 0))) := by
  rw [execRestart_next]
  refine and_congr_right fun hc => ?_
  rw [startMarker_clearCursors hc, Host.Outcome.next.injEq, eq_comm (b := t)]

/-! ### The opened session -/

/-- What the session `t` opened on `s` has in both modes: all but `BR.WR` and the BitRing's slots. -/
structure SessionOpened (s t : State) : Prop where
  srWr : t.srWr = 0
  srRd : t.srRd = 0
  srBits : t.srBits = 0
  srState : t.srState = .active
  srBuf : t.srBuf = s.srBuf
  brRd : t.brRd = 0
  brBit : t.brBit = 0
  brBss : t.brBss = 0
  brSync : t.brSync = false
  brState : t.brState = .active
  encAcc : t.encAcc = 0
  started : t.started = s.started
  cfg : t.cfg = s.cfg
  pending : t.pending = s.pending
  resetLine : t.resetLine = s.resetLine
  powerOns : t.powerOns = s.powerOns

theorem openSession_opened (s : State) : SessionOpened s s.openSession := by
  unfold State.openSession
  cases s.cfg.mode <;>
    exact ⟨rfl, rfl, rfl, rfl, rfl, rfl, rfl, rfl, rfl, rfl, rfl, rfl, rfl, rfl, rfl, rfl⟩

/-- In Emitter mode the marker is the one byte written (R159). -/
theorem openSession_bitRing_emitter (hm : s.cfg.mode = .emitter) :
    s.openSession.brWr = 1 ∧ s.openSession.brBuf.read 1 = s.cfg.syncSignal ∧
      ∀ slot, slot ≠ 1 → s.openSession.brBuf.read slot = s.brBuf.read slot := by
  rw [State.openSession, hm]
  exact ⟨rfl, Memory.read_write_same _ _ _, fun _ hslot => Memory.read_write_other _ _ hslot⟩

theorem openSession_bitRing_receiver (hm : s.cfg.mode = .receiver) :
    s.openSession.brWr = 0 ∧ ∀ slot, s.openSession.brBuf.read slot = s.brBuf.read slot := by
  simp [State.openSession, hm]

/-! ### Statuses -/

/-- The statuses of START and RESTART once the marker is known to go in (R133). -/
theorem start_or_restart_endsIn {i : Instr} (hi : i = .start ∨ i = .restart) (h : exec i s = .next t) :
    EndsIn [.ok, .configError, .notStarted, .stateError] s t := by
  rcases hi with rfl | rfl
  · rcases (execStart_next_openSession.1 h).2 with ⟨-, rfl⟩ | ⟨-, -, rfl⟩ | ⟨-, -, rfl⟩
    · exact .respond rfl (by simp)
    · exact .respond rfl (by simp)
    · exact .respond (openSession_opened s.zeroFill.markStarted).cfg (by simp)
  · rcases (execRestart_next_openSession.1 h).2 with ⟨-, rfl⟩ | ⟨-, rfl⟩
    · exact .respond (openSession_opened s).cfg (by simp)
    · exact .respond rfl (by simp)

/-! ### The elements only the session commands write (R130) -/

/-- The ring states and `SES.STARTED` of the two states agree. -/
def SameSession (s t : State) : Prop := t.srState = s.srState ∧ t.brState = s.brState ∧ t.started = s.started

theorem SameSession.trans {u : State} (h : SameSession s t) (k : SameSession t u) : SameSession s u :=
  let ⟨hsr, hbr, hstarted⟩ := h
  let ⟨ksr, kbr, kstarted⟩ := k
  ⟨ksr.trans hsr, kbr.trans hbr, kstarted.trans hstarted⟩

theorem EncoderKeeps.sameSession (h : EncoderKeeps s t) : SameSession s t := ⟨h.srState, h.brState, h.started⟩

theorem ExtractKeeps.sameSession (h : ExtractKeeps s t) : SameSession s t := ⟨h.srState, h.brState, h.started⟩

theorem sameSession_respond (s : State) (r : ResponseWord) : SameSession s (s.respond r) := ⟨rfl, rfl, rfl⟩

theorem synchronize_sameSession (s : State) : SameSession s (synchronize s) := by
  rcases synchronize_cases (s := s) with ⟨-, e⟩ | ⟨-, e⟩ <;> rw [e] <;> exact ⟨rfl, rfl, rfl⟩

theorem encoderUpdate_sameSession (h : encoderUpdate s = .next t) : SameSession s t := by
  have hall := (encodeAll_keeps s.depthS s).sameSession
  rcases encoderUpdate_next.1 h with ⟨-, rfl⟩ | ⟨-, -, rfl⟩ | ⟨-, -, rfl⟩
  · exact sameSession_respond s _
  · exact hall
  · exact hall

theorem extractWord_sameSession (h : extractWord s = .next t) : SameSession s t := by
  have hread := (extractBits_keeps s.cfg.wordBits 0 s).sameSession
  rcases extractWord_next.1 h with ⟨-, rfl⟩ | ⟨-, hpush⟩
  · exact sameSession_respond s _
  · rcases pushDecoded_next.1 hpush with ⟨-, rfl⟩ | ⟨-, rfl⟩ <;> exact hread

theorem decoderUpdate_sameSession (h : decoderUpdate s = .next t) : SameSession s t := by
  rcases decoderUpdate_next.1 h with ⟨-, hword⟩ | ⟨-, rfl⟩
  · exact (synchronize_sameSession s).trans (extractWord_sameSession hword)
  · exact synchronize_sameSession s

theorem PortOutcome.sameSession {mode : Mode} {ring : RingState} {barred : Bool} {bar : Status} {data : BitVec 24}
    {done : State} (hport : PortOutcome mode ring barred bar data done s t) (hdone : SameSession s done) :
    SameSession s t :=
  hport.preserves (P := SameSession s) (fun _ _ h => h) ⟨rfl, rfl, rfl⟩ fun _ => hdone

theorem exec_sameSession {i : Instr} (hstart : i ≠ .start) (hstop : i ≠ .stop) (hrestart : i ≠ .restart)
    (h : exec i s = .next t) : SameSession s t := by
  cases i with
  | start => exact absurd rfl hstart
  | stop => exact absurd rfl hstop
  | restart => exact absurd rfl hrestart
  | update =>
    rcases (execUpdate_next.1 h).2 with ⟨-, rfl⟩ | ⟨-, -, -, henc⟩ | ⟨-, -, -, hdec⟩
    · exact sameSession_respond s _
    · exact encoderUpdate_sameSession henc
    · exact decoderUpdate_sameSession hdec
  | pushw word =>
    rcases (execPushw_next.1 h).2 with ⟨-, hport⟩ | ⟨-, rfl⟩
    · exact hport.sameSession ⟨rfl, rfl, rfl⟩
    · exact sameSession_respond s _
  | popw => exact (execPopw_next.1 h).2.sameSession ⟨rfl, rfl, rfl⟩
  | pushb byte => exact (execPushb_next.1 h).2.sameSession ⟨rfl, rfl, rfl⟩
  | popb => exact (execPopb_next.1 h).2.sameSession ⟨rfl, rfl, rfl⟩
  | rdreg reg => rcases (execRdreg_next.1 h).2 with ⟨-, rfl⟩ | ⟨-, rfl⟩ <;> exact sameSession_respond s _
  | peekw slot => rcases (execPeekw_next.1 h).2 with ⟨-, rfl⟩ | ⟨-, rfl⟩ <;> exact sameSession_respond s _
  | peekb slot => rcases (execPeekb_next.1 h).2 with ⟨-, rfl⟩ | ⟨-, rfl⟩ <;> exact sameSession_respond s _

end SessionCommands

/-- Settles O18: past its checks START opens a session on the zeroed buffers. -/
theorem startOpensSession : Obligations.StartOpensSession := by
  intro s hc hidle hsize
  have hopen := openSession_opened s.zeroFill.markStarted
  refine ⟨_, execStart_next_openSession.2 ⟨hc, .inr (.inr ⟨hidle, hsize, rfl⟩)⟩, rfl, hopen.srWr, hopen.srRd, hopen.srBits,
    hopen.brRd, hopen.brBit, hopen.brBss, hopen.brSync, hopen.encAcc, hopen.srState, hopen.brState, hopen.started,
    fun slot => ?_, openSession_bitRing_emitter (s := s.zeroFill.markStarted),
    openSession_bitRing_receiver (s := s.zeroFill.markStarted), hopen.cfg, hopen.pending, hopen.resetLine, hopen.powerOns⟩
  simp [hopen.srBuf]

/-- Settles O19: each check answers before anything is written. -/
theorem startChecksInOrder : Obligations.StartChecksInOrder := by
  intro s hc
  exact ⟨fun hactive => execStart_next_openSession.2 ⟨hc, .inl ⟨hactive, rfl⟩⟩,
    fun hidle hsmall => execStart_next_openSession.2 ⟨hc, .inr (.inl ⟨hidle, hsmall, rfl⟩)⟩⟩

/-- Settles O20: the two modes differ in `BR.SYNC` alone. -/
theorem stopClosesSessionInEveryState : Obligations.StopClosesSessionInEveryState := by
  intro s hc
  refine execStop_next.2 ⟨hc, ?_⟩
  cases hm : s.cfg.mode with
  | emitter => exact .inl ⟨rfl, rfl⟩
  | receiver => exact .inr ⟨rfl, rfl⟩

/-- Settles O21: after a START, RESTART opens a session on the buffers as they are. -/
theorem restartRewindsAndKeepsBuffers : Obligations.RestartRewindsAndKeepsBuffers := by
  intro s hc hstarted
  have hopen := openSession_opened s
  refine ⟨_, execRestart_next_openSession.2 ⟨hc, .inl ⟨hstarted, rfl⟩⟩, rfl, hopen.srState, hopen.brState, hopen.srWr,
    hopen.srRd, hopen.srBits, hopen.brRd, hopen.brBit, hopen.brBss, hopen.brSync, hopen.encAcc, fun slot => ?_,
    openSession_bitRing_emitter, openSession_bitRing_receiver, hopen.started.trans hstarted, hopen.cfg, hopen.pending,
    hopen.resetLine, hopen.powerOns⟩
  simp [hopen.srBuf]

/-- Settles O22: the check answers before anything is written. -/
theorem restartNeedsStart : Obligations.RestartNeedsStart := by
  intro s hc hunstarted
  exact execRestart_next_openSession.2 ⟨hc, .inr ⟨hunstarted, rfl⟩⟩

/-- Settles O23: OVERRUN is none of the statuses left, since the marker always goes in. -/
theorem startAndRestartNeverOverrun : Obligations.StartAndRestartNeverOverrun := by
  intro s t i r hi hnext hresponse hoverrun
  exact (start_or_restart_endsIn hi hnext).not_hasStatus (by decide) ⟨r, hresponse, hoverrun⟩

/-- Settles O24: no other command writes the three elements, and no session command has WRONG_MODE among its statuses. -/
theorem onlySessionCommandsWriteSession : Obligations.OnlySessionCommandsWriteSession := by
  intro s t i hnext
  refine ⟨fun hstart hstop hrestart => exec_sameSession hstart hstop hrestart hnext, fun hi r hresponse hwrong => ?_⟩
  have hstatus : Status.wrongMode ∉ statusesOf i := by rcases hi with rfl | rfl | rfl <;> decide
  exact (exec_endsIn hnext).not_hasStatus hstatus ⟨r, hresponse, hwrong⟩

end Sys2Proof.Machine

/-! ## UPDATE and the Encoder (41_encoder.md R150 to R165)

A pass of the Encoder moves one bit out of the unread Words; `bitsToPack` loses 8 bits when a byte completes and nothing
otherwise. One invariant of a run, kept by every pass, says how far it is and what it has pushed; what an UPDATE ends in
is read off it. -/

namespace Sys2Proof.Machine

/-! ### UPDATE outside a session, and disambiguation (R150, R155, R158) -/

/-- Settles O39: the session check comes before the mode is looked at. -/
theorem updateNeedsActiveSession : Obligations.UpdateNeedsActiveSession := by
  intro s hc hidle
  exact execUpdate_next.2 ⟨hc, .inl ⟨hidle, rfl⟩⟩

section Disambiguation

/-- A byte with bit `i` flipped (R155). -/
theorem getLsbD_xor_bit (d : Byte) {i : Nat} (hi : i < 8) (j : Nat) :
    (d ^^^ ((1 : Byte) <<< i)).getLsbD j = (d.getLsbD j ^^ decide (j = i)) := by
  have hbit : ((1 : Byte) <<< i).getLsbD j = decide (j = i) := by
    show (1#8 <<< i).getLsbD j = _
    rw [← BitVec.twoPow_eq, BitVec.getLsbD_twoPow]
    simp [hi, eq_comm]
  rw [BitVec.getLsbD_xor, hbit]

theorem xor_bit_ne (d : Byte) {i : Nat} (hi : i < 8) : d ^^^ ((1 : Byte) <<< i) ≠ d := by
  intro h
  have hbit := getLsbD_xor_bit d hi i
  rw [h] at hbit
  simp at hbit

/-- The byte is the marker and has one bit flipped, or it is not and stays as it is (R155). -/
theorem disambiguate_cases (c : Config) (done : Bool) (k r : Nat) (d : Byte) :
    (d = c.syncSignal ∧ disambiguate c done k r d = d ^^^ ((1 : Byte) <<< (flipIndex c done k r).toNat)) ∨
    (d ≠ c.syncSignal ∧ disambiguate c done k r d = d) := by
  by_cases h : d = c.syncSignal
  · exact .inl ⟨h, if_pos h⟩
  · exact .inr ⟨h, if_neg h⟩

end Disambiguation

/-- Settles O40: a flipped marker differs from the marker, and any other byte does already. -/
theorem disambiguationFlipsOneBitOfAMarkerByte : Obligations.DisambiguationFlipsOneBitOfAMarkerByte := by
  intro c done k r d
  have hflip : (flipIndex c done k r).toNat < 8 := (flipIndex c done k r).isLt
  rcases disambiguate_cases c done k r d with ⟨hd, e⟩ | ⟨hd, e⟩ <;> rw [e]
  · exact ⟨fun j => by rw [getLsbD_xor_bit d hflip]; simp [hd], hd ▸ xor_bit_ne d hflip⟩
  · exact ⟨fun j => by simp [hd], hd⟩

/-- Settles O41: each case is a branch of the default, and its value fits the 3 bits. -/
theorem defaultFlipIndex : Obligations.DefaultFlipIndex := by
  intro c k r hflip
  refine ⟨by simp [flipIndex, hflip], fun _ hk => ?_, ?_⟩
  · simp [flipIndex, hflip, hk, Nat.mod_eq_of_lt hk]
  · simp [flipIndex, hflip]

/-! ### `PushData` (R156, R157, R162) -/

section Push

variable {s : State}

/-- In Emitter mode the count never reaches P-1 between two data bytes (R44, R162). -/
abbrev State.CountBounded (s : State) : Prop := s.brBss.toNat + 2 ≤ s.cfg.syncPeriod

/-- The count after a data byte, pushed or dropped: one more, or 0 where the marker is due (R156, R162). -/
theorem countByte_count (hc : s.cfg.WellFormed) (hcount : s.CountBounded) :
    (countByte s).1.brBss.toNat = (s.brBss.toNat + 1) % (s.cfg.syncPeriod - 1) := by
  obtain ⟨-, ⟨-, hperiod⟩, -⟩ := hc
  have hle : s.brBss.toNat + 2 ≤ s.cfg.syncPeriod := hcount
  rcases countByte_cases s with ⟨hdue, e⟩ | ⟨hbelow, e⟩ <;> rw [e]
  · have hlast : s.brBss.toNat + 1 = s.cfg.syncPeriod - 1 := by omega
    rw [hlast, Nat.mod_self]
    rcases pushOrDrop_cases s.cfg.syncSignal (s.withCount 0) with ⟨-, e⟩ | ⟨-, e⟩ <;> rw [e] <;> rfl
  · rw [Nat.mod_eq_of_lt (by omega), State.withCount_brBss, BitVec.toNat_ofNat, Nat.mod_eq_of_lt (by omega)]

theorem pushOrDrop_brBss (d : Byte) (s : State) : (pushOrDrop d s).1.brBss = s.brBss := by
  rcases pushOrDrop_cases d s with ⟨-, e⟩ | ⟨-, e⟩ <;> rw [e]
  rfl

theorem pushData_count (hc : s.cfg.WellFormed) (hcount : s.CountBounded) (d : Byte) :
    (pushData d s).1.brBss.toNat = (s.brBss.toNat + 1) % (s.cfg.syncPeriod - 1) := by
  have hcfg := (pushOrDrop_keeps d s).cfg
  have hbss := pushOrDrop_brBss d s
  rw [← hcfg, ← hbss]
  refine countByte_count (hcfg ▸ hc) ?_
  rw [State.CountBounded, hcfg, hbss]
  exact hcount

/-- A full ring stays as it is, whether a marker is due or not (R157). -/
theorem pushData_of_full (hfull : s.fullB = true) (d : Byte) :
    (pushData d s).2 = false ∧ (pushData d s).1.brWr = s.brWr ∧ (pushData d s).1.brBuf = s.brBuf := by
  have hdata : pushOrDrop d s = (s, false) := if_pos hfull
  have hmarker : pushOrDrop s.cfg.syncSignal (s.withCount 0) = (s.withCount 0, false) := if_pos hfull
  rw [pushData, hdata]
  rcases countByte_cases s with ⟨-, e⟩ | ⟨-, e⟩
  · rw [e, hmarker]; exact ⟨rfl, rfl, rfl⟩
  · rw [e]; exact ⟨rfl, rfl, rfl⟩

/-- With no marker due the byte is the one push (R156). -/
theorem pushData_of_not_due (hroom : s.fullB = false) (hbelow : s.brBss.toNat + 2 < s.cfg.syncPeriod) (d : Byte) :
    pushData d s = ((s.putByte d).withCount (BitVec.ofNat 16 (s.brBss.toNat + 1)), true) := by
  have hdata : pushOrDrop d s = (s.putByte d, true) := by simp [pushOrDrop, hroom]
  rw [pushData, hdata]
  rcases countByte_cases (s.putByte d) with ⟨hdue, -⟩ | ⟨-, e⟩
  · exact absurd hdue (Nat.not_le.2 hbelow)
  · simp [e]

/-- With a marker due it follows the byte, where it finds room (R156, R157). -/
theorem pushData_of_due (hroom : s.fullB = false) (hdue : s.cfg.syncPeriod ≤ s.brBss.toNat + 2) (d : Byte) :
    pushData d s = pushOrDrop s.cfg.syncSignal ((s.putByte d).withCount 0) := by
  have hdata : pushOrDrop d s = (s.putByte d, true) := by simp [pushOrDrop, hroom]
  rw [pushData, hdata]
  rcases countByte_cases (s.putByte d) with ⟨-, e⟩ | ⟨hbelow, -⟩
  · simp [e]
  · exact absurd hdue (Nat.not_le.2 hbelow)

/-- A cursor's successor is another slot, in a ring of legal capacity (R6, R73). -/
theorem inc_ne_self {i : Cursor} {cap : Nat} (hi : i.toNat < cap) (h : 2 ≤ cap ∧ cap ≤ 65535) : inc i cap ≠ i := by
  intro he
  rcases toNat_inc_cases i hi (by omega) with ⟨-, hinc⟩ | ⟨hlast, hinc⟩ <;> rw [he] at hinc <;> omega

/-- The elements an Encoder UPDATE may write, as one record (R151). -/
theorem EncoderKeeps.frame {t : State} (h : EncoderKeeps s t) :
    t = { s with
      srRd := t.srRd, srBits := t.srBits, brBit := t.brBit, encAcc := t.encAcc,
      brWr := t.brWr, brBuf := t.brBuf, brBss := t.brBss } := by
  rw [← h.srBuf, ← h.srWr, ← h.srState, ← h.brRd, ← h.brSync, ← h.brState, ← h.started, ← h.cfg, ← h.pending,
    ← h.resetLine, ← h.response, ← h.powerOns]

theorem pushOrDrop_encAcc (d : Byte) (s : State) : (pushOrDrop d s).1.encAcc = s.encAcc := by
  rcases pushOrDrop_cases d s with ⟨-, e⟩ | ⟨-, e⟩ <;> rw [e]
  rfl

theorem pushData_encAcc (d : Byte) (s : State) : (pushData d s).1.encAcc = s.encAcc := by
  refine Eq.trans ?_ (pushOrDrop_encAcc d s)
  rcases countByte_cases (pushOrDrop d s).1 with ⟨-, e⟩ | ⟨-, e⟩
  · rw [pushData, e]; exact pushOrDrop_encAcc _ _
  · rw [pushData, e]; rfl

/-- `PushData` writes the BitRing's slots, its write cursor and its count (R156). -/
theorem pushData_frame (d : Byte) (s : State) :
    (pushData d s).1 =
      { s with brWr := (pushData d s).1.brWr, brBuf := (pushData d s).1.brBuf, brBss := (pushData d s).1.brBss } := by
  have hplace := pushData_pushKeeps d s
  conv_lhs => rw [(pushData_keeps d s).frame, hplace.srRd, hplace.srBits, hplace.brBit, pushData_encAcc]

end Push

/-- Settles O43: the ring is full, or takes the byte alone, or finds no room or room for the marker as well. -/
theorem pushDataCountsAndInsertsMarkers : Obligations.PushDataCountsAndInsertsMarkers := by
  intro s d hc hrange hcount
  obtain ⟨-, -, -, hcap, -⟩ := id hc
  refine ⟨pushData_count hc hcount d, ?_, pushData_frame d s⟩
  cases hfull : s.fullB with
  | true => rw [if_pos rfl]; exact pushData_of_full hfull d
  | false =>
    rw [if_neg Bool.false_ne_true]
    split
    · rename_i hbelow
      rw [pushData_of_not_due hfull hbelow]
      exact ⟨rfl, rfl, Memory.read_write_same _ _ _, fun _ ha => Memory.read_write_other _ _ ha⟩
    · rename_i hdue
      rw [pushData_of_due hfull (Nat.not_lt.1 hdue)]
      split
      · rename_i hlast
        have hpush : pushOrDrop s.cfg.syncSignal ((s.putByte d).withCount 0) = ((s.putByte d).withCount 0, false) :=
          if_pos (beq_iff_eq.2 hlast)
        rw [hpush]
        exact ⟨rfl, rfl, Memory.read_write_same _ _ _, fun _ ha => Memory.read_write_other _ _ ha⟩
      · rename_i hnext
        have hpush : pushOrDrop s.cfg.syncSignal ((s.putByte d).withCount 0) =
            (((s.putByte d).withCount 0).putByte s.cfg.syncSignal, true) :=
          if_neg (mt beq_iff_eq.1 hnext)
        have hslots : s.nextWriteB.toNat ≠ (inc s.nextWriteB s.cfg.capB).toNat := fun he =>
          inc_ne_self (inc_lt_of_bounds _ hcap) hcap (BitVec.eq_of_toNat_eq he.symm)
        rw [hpush]
        refine ⟨rfl, rfl, ?_, Memory.read_write_same _ _ _, fun a h₁ h₂ => ?_⟩
        · exact (Memory.read_write_other _ _ hslots).trans (Memory.read_write_same _ _ _)
        · exact (Memory.read_write_other _ _ h₂).trans (Memory.read_write_other _ _ h₁)

/-! ### The stream (R79, R80, R156, R162) -/

section Stream

/-- A byte is made of its own bits (R79, R80). -/
theorem byteOfBits_msbBits (v : Byte) : byteOfBits (msbBits 8 v) = v := by
  apply BitVec.eq_of_getLsbD_eq
  intro i hi
  have hbits : msbBits 8 v = [v.getLsbD 7, v.getLsbD 6, v.getLsbD 5, v.getLsbD 4, v.getLsbD 3, v.getLsbD 2,
    v.getLsbD 1, v.getLsbD 0] := rfl
  rw [hbits, byteOfBits]
  interval_cases i <;> simp

theorem bytesOfBits_getElem? {n m : Nat} (hm : m < n) (bits : List Bool) :
    (bytesOfBits n bits)[m]? = some (byteOfBits ((bits.drop (8 * m)).take 8)) := by
  induction m generalizing n bits with
  | zero =>
    obtain ⟨n, rfl⟩ := Nat.exists_eq_succ_of_ne_zero hm.ne'
    rfl
  | succ m ih =>
    obtain ⟨n, rfl⟩ := Nat.exists_eq_succ_of_ne_zero (Nat.ne_zero_of_lt hm)
    rw [bytesOfBits, List.getElem?_cons_succ, ih (Nat.lt_of_succ_lt_succ hm), List.drop_drop, Nat.mul_succ,
      Nat.add_comm 8]

/-- The `m`-th data byte as it is sent, from the bits before it (R153, R155). -/
theorem sentBytes_getElem? {s : State} {m : Nat} (hm : m < s.bitsToPack.length / 8) :
    s.sentBytes[m]? = some (s.sentByte m (byteOfBits ((s.bitsToPack.drop (8 * m)).take 8))) := by
  rw [State.sentBytes, List.getElem?_mapIdx, State.dataBytes, bytesOfBits_getElem? hm, Option.map_some]

/-- Markers go in by the count alone: a run goes on from the count its first part leaves (R162). -/
theorem withMarkers_append (c : Config) {bss : Nat} (hbss : bss + 2 ≤ c.syncPeriod) (ds es : List Byte) :
    withMarkers c bss (ds ++ es) =
      withMarkers c bss ds ++ withMarkers c ((bss + ds.length) % (c.syncPeriod - 1)) es := by
  induction ds generalizing bss with
  | nil => simp [withMarkers, Nat.mod_eq_of_lt (show bss < c.syncPeriod - 1 by omega)]
  | cons d ds ih =>
    rw [List.cons_append, withMarkers, withMarkers]
    split
    · have hlast : bss + (d :: ds).length = (0 + ds.length) + (c.syncPeriod - 1) := by rw [List.length_cons]; omega
      rw [ih (by omega), hlast, Nat.add_mod_right, List.cons_append, List.cons_append]
    · rw [ih (by omega), List.length_cons, Nat.add_right_comm, List.cons_append, Nat.add_assoc]

/-- What the first `m` data bytes of an UPDATE have it push, markers included (R156). -/
def State.stream (s : State) (m : Nat) : List Byte := withMarkers s.cfg s.brBss.toNat (s.sentBytes.take m)

variable {s : State}

theorem stream_zero : s.stream 0 = [] := by simp [State.stream, withMarkers]

theorem stream_succ (hcount : s.CountBounded) {m : Nat} {d : Byte} (hd : s.sentBytes[m]? = some d) :
    s.stream (m + 1) = s.stream m ++ withMarkers s.cfg ((s.brBss.toNat + m) % (s.cfg.syncPeriod - 1)) [d] := by
  have hm : m < s.sentBytes.length := (List.getElem?_eq_some_iff.1 hd).1
  rw [State.stream, List.take_add_one, hd, Option.toList_some, withMarkers_append _ hcount, List.length_take,
    Nat.min_eq_left hm.le, State.stream]

/-- All data bytes give the whole of what is to push. -/
theorem stream_all {m : Nat} (hm : s.bitsToPack.length / 8 ≤ m) : s.stream m = s.outgoing := by
  rw [State.stream, List.take_of_length_le (by simpa using hm), State.outgoing]

/-- What the first data bytes have pushed stands at the front of what is to push. -/
theorem stream_isPrefix_outgoing (hcount : s.CountBounded) (m : Nat) : s.stream m <+: s.outgoing := by
  conv_rhs => rw [State.outgoing, ← List.take_append_drop m s.sentBytes, withMarkers_append _ hcount]
  exact ⟨_, rfl⟩

end Stream

/-! ### Pushing into a ring until it is full (R75, R156, R157) -/

section Pushing

variable {w : Nat}

namespace RingView

/-- How many items the ring has room for (R75). -/
def room (r : RingView w) : Nat := r.cap - 1 - r.depth

/-- `r'` is `r` after a push of `items`: as many of them as there was room for are put, from the front, and `ok` says
whether that is all of them. -/
structure Pushed (r : RingView w) (items : List (BitVec w)) (ok : Bool) (r' : RingView w) : Prop where
  inRange : r'.InRange
  unread : r'.unread = r.unread ++ items.take r.room
  room : r'.room = r.room - items.length
  ok_iff : ok = true ↔ items.length ≤ r.room

variable {r r' r'' : RingView w}

theorem Pushed.nil (h : r.InRange) : r.Pushed [] true r := ⟨h, by simp, by simp, by simp⟩

theorem Pushed.append {items items' : List (BitVec w)} {ok ok' : Bool} (h : r.Pushed items ok r')
    (k : r'.Pushed items' ok' r'') : r.Pushed (items ++ items') (ok && ok') r'' where
  inRange := k.inRange
  unread := by rw [k.unread, h.unread, h.room, List.append_assoc, List.take_append]
  room := by rw [k.room, h.room, List.length_append, Nat.sub_sub]
  ok_iff := by
    have hroom := h.room
    rw [Bool.and_eq_true, h.ok_iff, k.ok_iff, List.length_append]
    omega

theorem Pushed.room_lt {items : List (BitVec w)} (h : r.Pushed items false r') : r.room < items.length :=
  Nat.not_le.1 fun hle => Bool.false_ne_true (h.ok_iff.2 hle)

theorem InRange.full_iff (h : r.InRange) : inc r.wr r.cap = r.rd ↔ r.room = 0 := by
  have hlt : r.depth < r.cap := depth_lt _ _ (Nat.zero_lt_of_lt h.wr_lt)
  rw [inc_eq_iff_depth h.wr_lt h.rd_lt h.cap_le, room]
  show r.depth = r.cap - 1 ↔ _
  omega

/-- One item: dropped where the ring is full, and put otherwise. -/
theorem Pushed.drop (h : r.InRange) (hfull : inc r.wr r.cap = r.rd) (v : BitVec w) : r.Pushed [v] false r := by
  have hroom : r.room = 0 := h.full_iff.1 hfull
  exact ⟨h, by simp [hroom], by simp [hroom], by simp [hroom]⟩

theorem Pushed.put (h : r.InRange) (hfree : inc r.wr r.cap ≠ r.rd) (v : BitVec w) : r.Pushed [v] true (r.put v) := by
  have hroom : r.room ≠ 0 := mt h.full_iff.2 hfree
  have hdepth : (r.put v).depth = r.depth + 1 := depth_inc_write h.wr_lt h.rd_lt h.cap_le hfree
  refine ⟨h.put v, ?_, ?_, ?_⟩
  · rw [h.unread_put hfree, List.take_of_length_le (by rw [List.length_singleton]; omega)]
  · rw [RingView.room, RingView.room, hdepth]
    exact (Nat.sub_sub _ _ _).symm
  · simpa using Nat.one_le_iff_ne_zero.2 hroom

end RingView

open RingView

variable {s : State}

theorem pushOrDrop_pushed (h : s.bitRing.InRange) (d : Byte) :
    s.bitRing.Pushed [d] (pushOrDrop d s).2 (pushOrDrop d s).1.bitRing := by
  rcases pushOrDrop_cases d s with ⟨hfull, e⟩ | ⟨hroom, e⟩ <;> rw [e]
  · exact .drop h (beq_iff_eq.1 hfull) d
  · exact .put h (fullB_eq_false_iff.1 hroom) d

/-- The marker after a data byte, where it is due (R156). -/
theorem countByte_pushed (h : s.bitRing.InRange) :
    s.bitRing.Pushed (if s.brBss.toNat + 2 ≥ s.cfg.syncPeriod then [s.cfg.syncSignal] else []) (countByte s).2
      (countByte s).1.bitRing := by
  rcases countByte_cases s with ⟨hdue, e⟩ | ⟨hbelow, e⟩ <;> rw [e]
  · rw [if_pos hdue]
    exact pushOrDrop_pushed (s := s.withCount 0) h _
  · rw [if_neg (Nat.not_le.2 hbelow)]
    exact .nil h

/-- `PushData` pushes the byte and the marker that may follow it (R156, R157). -/
theorem pushData_pushed (h : s.bitRing.InRange) (d : Byte) :
    s.bitRing.Pushed (withMarkers s.cfg s.brBss.toNat [d]) (pushData d s).2 (pushData d s).1.bitRing := by
  have hpush := pushOrDrop_pushed h d
  have hcount := countByte_pushed hpush.inRange
  rw [(pushOrDrop_keeps d s).cfg, pushOrDrop_brBss] at hcount
  have hboth := hpush.append hcount
  have hmarkers : withMarkers s.cfg s.brBss.toNat [d] =
      [d] ++ (if s.brBss.toNat + 2 ≥ s.cfg.syncPeriod then [s.cfg.syncSignal] else []) := by
    rw [withMarkers]
    split <;> rfl
  rw [hmarkers]
  exact hboth

end Pushing

/-! ### One bit (R152 to R154) -/

section OneBit

variable {s : State}

/-- The bits the unread Words have still to give. -/
def State.wordBitsLeft (s : State) : List Bool := (s.unreadWords.flatMap (msbBits s.cfg.wordBits)).drop s.srBits.toNat

theorem bitsToPack_eq (s : State) : s.bitsToPack = s.heldBits ++ s.wordBitsLeft := rfl

theorem heldBits_length (s : State) : s.heldBits.length = s.brBit.toNat := by
  have hbit : s.brBit.toNat < 8 := s.brBit.isLt
  simp only [State.heldBits, List.length_take, msbBits_length]
  omega

theorem SoundParts.length_unreadWords (h : SoundParts s) : s.unreadWords.length = s.depthS :=
  h.sampleRing.length_unread

theorem wordBitsLeft_length (h : SoundParts s) :
    s.wordBitsLeft.length + s.srBits.toNat = s.depthS * s.cfg.wordBits := by
  have hlen : (s.unreadWords.flatMap (msbBits s.cfg.wordBits)).length = s.depthS * s.cfg.wordBits := by
    simp [List.length_flatMap, h.length_unreadWords]
  have hle : s.srBits.toNat ≤ s.depthS * s.cfg.wordBits := by
    rcases Nat.eq_zero_or_pos s.depthS with hd | hd
    · simp [h.drained hd]
    · exact h.srBits_lt.le.trans (Nat.le_mul_of_pos_left _ hd)
  rw [State.wordBitsLeft, List.length_drop, hlen, Nat.sub_add_cancel hle]

theorem bitsToPack_length (h : SoundParts s) :
    s.bitsToPack.length + s.srBits.toNat = s.brBit.toNat + s.depthS * s.cfg.wordBits := by
  rw [bitsToPack_eq, List.length_append, heldBits_length, Nat.add_assoc, wordBitsLeft_length h]

theorem wordBitsLeft_of_drained (hd : s.depthS = 0) : s.wordBitsLeft = [] := by
  rw [State.wordBitsLeft, State.unreadWords, hd]
  simp [ringItems]

/-- The bits of a Word from its `i`-th on begin with that one (R152). -/
theorem drop_msbBits {w n i : Nat} (v : BitVec w) (hi : i < n) :
    (msbBits n v).drop i = v.getLsbD (n - 1 - i) :: (msbBits n v).drop (i + 1) := by
  rw [List.drop_eq_getElem_cons (by simpa using hi)]
  simp [msbBits]

/-- One bit is taken from the Word being packed, which is done with its last bit (R152, R154). -/
structure BitTaken (s t : State) (done : Bool) : Prop where
  left : s.wordBitsLeft =
    (s.srBuf.read s.nextReadS.toNat).getLsbD (s.cfg.wordBits - 1 - s.srBits.toNat) :: t.wordBitsLeft
  done_iff : done = true ↔ s.srBits.toNat + 1 = s.cfg.wordBits
  finished : done = true → t.srBits.toNat = 0 ∧ t.depthS + 1 = s.depthS
  unfinished : done = false → t.srBits.toNat = s.srBits.toNat + 1 ∧ t.srRd = s.srRd ∧ t.depthS = s.depthS

theorem wordBitsLeft_cons (h : SoundParts s) (hunread : s.emptyS = false) :
    s.wordBitsLeft = (msbBits s.cfg.wordBits (s.srBuf.read s.nextReadS.toNat)).drop s.srBits.toNat ++
      s.takeWord.unreadWords.flatMap (msbBits s.cfg.wordBits) := by
  rw [State.wordBitsLeft, h.unreadWords_takeWord hunread, List.flatMap_cons,
    List.drop_append_of_le_length (by simpa using h.srBits_lt.le)]

/-- The next bit of the oldest unread Word placed. -/
def State.nextBit (s : State) : State × Bool := placeBit s.nextReadS (s.srBuf.read s.nextReadS.toNat) s

theorem nextBit_taken (h : SoundParts s) (hunread : s.emptyS = false) : BitTaken s s.nextBit.1 s.nextBit.2 := by
  have hcons := wordBitsLeft_cons h hunread
  rw [drop_msbBits _ h.srBits_lt, List.cons_append] at hcons
  rcases placeBit_cases s.nextReadS (s.srBuf.read s.nextReadS.toNat) s with ⟨hlast, e⟩ | ⟨hmore, e⟩ <;>
    rw [State.nextBit, e]
  · have hdepth : s.takeWord.depthS + 1 = s.depthS := by
      have hcap := h.capS_bounds
      exact depth_inc_read h.srWr_lt h.srRd_lt (by omega) (emptyS_eq_false_iff.1 hunread)
    refine ⟨?_, by simp [hlast], fun _ => ⟨rfl, hdepth⟩, nofun⟩
    rw [hcons, hlast, List.drop_of_length_le (by simp)]
    rfl
  · have hlt := h.srBits_lt
    have hbits : (BitVec.ofNat 5 (s.srBits.toNat + 1)).toNat = s.srBits.toNat + 1 := by
      obtain ⟨⟨-, hmax⟩, -⟩ := h.wellFormed
      rw [BitVec.toNat_ofNat]
      exact Nat.mod_eq_of_lt (by omega)
    refine ⟨?_, by simp [hmore], nofun, fun _ => ⟨hbits, rfl, rfl⟩⟩
    rw [hcons, ← List.drop_append_of_le_length (by simpa using hlt), ← List.flatMap_cons,
      ← h.unreadWords_takeWord hunread]
    exact congrArg (fun i => _ :: (s.unreadWords.flatMap (msbBits s.cfg.wordBits)).drop i) hbits.symm

/-- The bit goes after those already held (R153). -/
theorem take_msbBits_setBit (acc : Byte) {bit : Nat} (hbit : bit < 8) (b : Bool) :
    (msbBits 8 (setBit acc (7 - bit) b)).take (bit + 1) = (msbBits 8 acc).take bit ++ [b] := by
  have hall (v : Byte) {n : Nat} (hn : n ≤ 8) :
      (msbBits 8 v).take n = (List.range n).map fun j => v.getLsbD (7 - j) := by
    rw [msbBits, ← List.map_take, List.take_range, Nat.min_eq_left hn]
  rw [hall _ hbit, hall _ hbit.le, List.range_succ, List.map_append, List.map_singleton,
    getLsbD_setBit acc (by omega), if_pos rfl]
  refine congrArg (· ++ [b]) (List.map_congr_left fun j hj => ?_)
  have hlt : j < bit := List.mem_range.1 hj
  rw [getLsbD_setBit acc (by omega), if_neg (by omega)]

theorem nextBit_encAcc (s : State) :
    s.nextBit.1.encAcc = setBit s.encAcc (7 - s.brBit.toNat)
      ((s.srBuf.read s.nextReadS.toNat).getLsbD (s.cfg.wordBits - 1 - s.srBits.toNat)) := by
  rcases placeBit_cases s.nextReadS (s.srBuf.read s.nextReadS.toNat) s with ⟨-, e⟩ | ⟨-, e⟩ <;>
    rw [State.nextBit, e] <;> rfl

/-- Placing a bit moves it from the Words to the held bits and leaves the bits to pack as they were. -/
theorem nextBit_bits (h : SoundParts s) (hunread : s.emptyS = false) :
    (msbBits 8 s.nextBit.1.encAcc).take (s.brBit.toNat + 1) ++ s.nextBit.1.wordBitsLeft = s.bitsToPack := by
  rw [nextBit_encAcc, take_msbBits_setBit _ s.brBit.isLt, List.append_assoc, List.singleton_append,
    ← (nextBit_taken h hunread).left]
  rfl

theorem nextBit_keeps (s : State) : EncoderKeeps s s.nextBit.1 := placeBit_keeps _ _ s

theorem nextBit_bitRing (s : State) : s.nextBit.1.bitRing = s.bitRing := placeBit_bitRing _ _ s

theorem nextBit_brBss (s : State) : s.nextBit.1.brBss = s.brBss := by
  rcases placeBit_cases s.nextReadS (s.srBuf.read s.nextReadS.toNat) s with ⟨-, e⟩ | ⟨-, e⟩ <;>
    rw [State.nextBit, e] <;> rfl

end OneBit

/-! ### One pass (R151) -/

section OnePass

variable {s t : State} {p : Pass} {k : Nat}

theorem SoundParts.countBounded (h : SoundParts s) (hm : s.cfg.mode = .emitter) : s.CountBounded := by
  obtain ⟨-, hcount, -⟩ := h.emitter hm
  exact hcount

theorem EncoderKeeps.depthS_eq (h : EncoderKeeps s t) (hrd : t.srRd = s.srRd) : t.depthS = s.depthS := by
  rw [State.depthS, State.depthS, h.srWr, hrd, h.cfg]

theorem EncoderKeeps.wordBitsLeft_eq (h : EncoderKeeps s t) (hrd : t.srRd = s.srRd) (hbits : t.srBits = s.srBits) :
    t.wordBitsLeft = s.wordBitsLeft := by
  rw [State.wordBitsLeft, State.wordBitsLeft, State.unreadWords, State.unreadWords, h.depthS_eq hrd, h.srBuf, h.cfg,
    hrd, hbits]

theorem brBit_cases (s : State) : s.brBit.toNat < 7 ∨ s.brBit.toNat = 7 := by
  have hlt : s.brBit.toNat < 8 := s.brBit.isLt
  omega

/-- What follows in the pass leaves the place in the Words alone. -/
theorem BitTaken.of_keeps {u : State} {done : Bool} (h : BitTaken s t done) (hkeeps : EncoderKeeps t u)
    (hrd : u.srRd = t.srRd) (hbits : u.srBits = t.srBits) : BitTaken s u done where
  left := by rw [hkeeps.wordBitsLeft_eq hrd hbits]; exact h.left
  done_iff := h.done_iff
  finished := by rw [hkeeps.depthS_eq hrd, hbits]; exact h.finished
  unfinished := by rw [hkeeps.depthS_eq hrd, hbits, hrd]; exact h.unfinished

/-- A pass that completes no byte: one bit more is held (R153). -/
structure BitHeld (s : State) (k : Nat) (p : Pass) : Prop where
  bits : p.state.bitsToPack = s.bitsToPack
  bitRing : p.state.bitRing = s.bitRing
  count : p.state.brBss = s.brBss
  brBit : p.state.brBit.toNat = s.brBit.toNat + 1
  k : p.k = k + 1
  ok : p.ok = true

/-- The byte a pass completes, as it is sent: the next 8 bits, disambiguated by the arguments of R158. -/
def State.completedByte (s : State) (done : Bool) (k : Nat) : Byte :=
  disambiguate s.cfg done k (if done then 0 else s.cfg.wordBits - (s.srBits.toNat + 1))
    (byteOfBits (s.bitsToPack.take 8))

/-- A pass that completes a byte and pushes it (R155, R156). -/
structure ByteCompleted (s : State) (k : Nat) (p : Pass) : Prop where
  whole : 8 ≤ s.bitsToPack.length
  bits : p.state.bitsToPack = s.bitsToPack.drop 8
  pushed : s.bitRing.Pushed (withMarkers s.cfg s.brBss.toNat [s.completedByte p.done (k + 1)]) p.ok p.state.bitRing
  count : p.state.brBss.toNat = (s.brBss.toNat + 1) % (s.cfg.syncPeriod - 1)
  brBit : p.state.brBit = 0
  encAcc : p.state.encAcc = 0
  k : p.k = 0

/-- One pass over the oldest unread Word. -/
def State.nextPass (s : State) (k : Nat) : Pass := packBit s.nextReadS (s.srBuf.read s.nextReadS.toNat) k s

theorem heldBits_of_brBit (h : s.brBit = 0) : s.heldBits = [] := by simp [State.heldBits, h]

/-- What the pass's last bit is followed by (R151). -/
theorem nextPass_cases (s : State) (k : Nat) :
    let r := if s.nextBit.2 then 0 else s.cfg.wordBits - s.nextBit.1.srBits.toNat
    let q := completeByte s.nextBit.2 (k + 1) r (s.nextBit.1.withBit 0)
    (s.brBit.toNat = 7 ∧ s.nextPass k = ⟨q.1, 0, s.nextBit.2, q.2⟩) ∨
    (s.brBit.toNat < 7 ∧
      s.nextPass k = ⟨s.nextBit.1.withBit (BitVec.ofNat 3 (s.brBit.toNat + 1)), k + 1, s.nextBit.2, true⟩) :=
  packBit_cases _ _ k s

theorem nextPass_keeps (s : State) (k : Nat) : EncoderKeeps s (s.nextPass k).state := packBit_keeps _ _ k s

theorem nextPass_taken (h : SoundParts s) (hunread : s.emptyS = false) (k : Nat) :
    BitTaken s (s.nextPass k).state (s.nextPass k).done := by
  have htaken := nextBit_taken h hunread
  rcases nextPass_cases s k with ⟨-, e⟩ | ⟨-, e⟩ <;> rw [e]
  · exact htaken.of_keeps ((EncoderKeeps.position _ 0).trans (completeByte_keeps _ _ _ _))
      (completeByte_pushKeeps _ _ _ _).srRd (completeByte_pushKeeps _ _ _ _).srBits
  · exact htaken.of_keeps (EncoderKeeps.position _ _) rfl rfl

theorem nextPass_held (h : SoundParts s) (hunread : s.emptyS = false) (hbit : s.brBit.toNat < 7) (k : Nat) :
    BitHeld s k (s.nextPass k) := by
  have hnext : (BitVec.ofNat 3 (s.brBit.toNat + 1)).toNat = s.brBit.toNat + 1 := by
    rw [BitVec.toNat_ofNat]
    exact Nat.mod_eq_of_lt (by omega)
  have hbits := nextBit_bits h hunread
  rw [← hnext] at hbits
  rcases nextPass_cases s k with ⟨hlast, -⟩ | ⟨-, e⟩
  · exact absurd hlast hbit.ne
  · rw [e]
    exact ⟨hbits, nextBit_bitRing s, nextBit_brBss s, hnext, rfl, rfl⟩

/-- With its eighth bit `ENC.ACC` holds the next 8 of the bits to pack, and the rest is still in the Words (R155). -/
theorem nextBit_eighth (h : SoundParts s) (hunread : s.emptyS = false) (hbit : s.brBit.toNat = 7) :
    8 ≤ s.bitsToPack.length ∧ s.nextBit.1.encAcc = byteOfBits (s.bitsToPack.take 8) ∧
      s.nextBit.1.wordBitsLeft = s.bitsToPack.drop 8 := by
  have hbits := nextBit_bits h hunread
  rw [hbit, List.take_of_length_le (by simp)] at hbits
  rw [← hbits]
  refine ⟨by simp, ?_, ?_⟩
  · rw [List.take_left' (msbBits_length _ _), byteOfBits_msbBits]
  · rw [List.drop_left' (msbBits_length _ _)]

/-- The state a completed byte is pushed in: its last bit placed, and no bit held (R155). -/
def State.byteTaken (s : State) : State := (s.nextBit.1.withBit 0).withAcc 0

theorem nextPass_of_eighth (h : SoundParts s) (hunread : s.emptyS = false) (hbit : s.brBit.toNat = 7) (k : Nat) :
    let q := pushData (s.completedByte s.nextBit.2 (k + 1)) s.byteTaken
    s.nextPass k = ⟨q.1, 0, s.nextBit.2, q.2⟩ := by
  obtain ⟨-, hacc, -⟩ := nextBit_eighth h hunread hbit
  have htaken := nextBit_taken h hunread
  have hrest : (if s.nextBit.2 then 0 else s.cfg.wordBits - s.nextBit.1.srBits.toNat) =
      if s.nextBit.2 then 0 else s.cfg.wordBits - (s.srBits.toNat + 1) :=
    ite_congr rfl (fun _ => rfl) fun hmore => by rw [(htaken.unfinished (Bool.eq_false_of_not_eq_true hmore)).1]
  rcases nextPass_cases s k with ⟨-, e⟩ | ⟨hless, -⟩
  · rw [e, hrest, completeByte]
    simp only [State.withBit_encAcc, State.withBit_cfg, hacc, (nextBit_keeps s).cfg]
    rfl
  · exact absurd hbit hless.ne

theorem nextPass_completed (h : SoundParts s) (hm : s.cfg.mode = .emitter) (hunread : s.emptyS = false)
    (hbit : s.brBit.toNat = 7) (k : Nat) : ByteCompleted s k (s.nextPass k) := by
  obtain ⟨hwhole, -, hrest⟩ := nextBit_eighth h hunread hbit
  have hcfg : s.byteTaken.cfg = s.cfg := (nextBit_keeps s).cfg
  have hring : s.byteTaken.bitRing = s.bitRing := nextBit_bitRing s
  have hbss : s.byteTaken.brBss = s.brBss := nextBit_brBss s
  rw [nextPass_of_eighth h hunread hbit]
  generalize hd : s.completedByte s.nextBit.2 (k + 1) = d
  have hplace := pushData_pushKeeps d s.byteTaken
  have hpush := pushData_pushed (s := s.byteTaken) (hring ▸ h.bitRing) d
  have hcount := pushData_count (s := s.byteTaken) (hcfg ▸ h.wellFormed)
    (by rw [State.CountBounded, hcfg, hbss]; exact h.countBounded hm) d
  rw [hcfg, hbss] at hcount hpush
  rw [hring] at hpush
  refine ⟨hwhole, ?_, hd ▸ hpush, hcount, hplace.brBit, pushData_encAcc _ _, rfl⟩
  rw [bitsToPack_eq, heldBits_of_brBit hplace.brBit, List.nil_append,
    (pushData_keeps d s.byteTaken).wordBitsLeft_eq hplace.srRd hplace.srBits]
  exact hrest

end OnePass

/-! ### The run of an Encoder UPDATE (R151) -/

/-! ### The run of an Encoder UPDATE (R151 to R157, R164) -/

section Run

variable {s t u : State} {m k : Nat} {ok done : Bool}

/-- The Words of `s` that are consumed in `u`. -/
def State.wordsDone (s u : State) : Nat := s.depthS - u.depthS

/-- How many bits of the unread Words of `s` are packed in `u`, those packed before `s` counted. -/
def State.place (s u : State) : Nat := s.wordsDone u * s.cfg.wordBits + u.srBits.toNat

/-- R151's `k` in `u`: how many bits of the byte now filling the run from `s` has placed from the Word now packed. -/
def State.placedHere (s u : State) : Nat :=
  min u.brBit.toNat (s.place u - max (s.wordsDone u * s.cfg.wordBits) s.srBits.toNat)

/-- The invariant of a run of the Encoder from `s`: in `u` it has completed `m` data bytes, and `ok` says whether all of
them, markers included, found room. -/
structure Packed (s : State) (m : Nat) (ok : Bool) (u : State) : Prop where
  parts : SoundParts u
  keeps : EncoderKeeps s u
  words : u.depthS ≤ s.depthS
  begun : s.srBits.toNat ≤ s.place u
  whole : 8 * m ≤ s.bitsToPack.length
  bits : u.bitsToPack = s.bitsToPack.drop (8 * m)
  pushed : s.bitRing.Pushed (s.stream m) ok u.bitRing
  count : u.brBss.toNat = (s.brBss.toNat + m) % (s.cfg.syncPeriod - 1)
  stopped : ok = false → u.brBit = 0 ∧ u.encAcc = 0 ∧ ∃ n, m = n + 1 ∧ (s.stream n).length ≤ s.roomB

theorem Packed.refl (h : SoundParts s) (hm : s.cfg.mode = .emitter) : Packed s 0 true s where
  parts := h
  keeps := .refl s
  words := Nat.le_refl _
  begun := Nat.le_add_left _ _
  whole := Nat.zero_le _
  bits := by simp
  pushed := by rw [stream_zero]; exact .nil h.bitRing
  count := by
    have hcount : s.brBss.toNat + 2 ≤ s.cfg.syncPeriod := h.countBounded hm
    rw [Nat.add_zero, Nat.mod_eq_of_lt (by omega)]
  stopped := nofun

namespace Packed

/-- Every bit packed is in a completed byte or held (R164). -/
theorem place_eq (hp : Packed s m ok u) (h : SoundParts s) :
    s.place u + s.brBit.toNat = s.srBits.toNat + 8 * m + u.brBit.toNat := by
  have hs := bitsToPack_length h
  have hu := bitsToPack_length hp.parts
  have hwhole := hp.whole
  have hwords : s.wordsDone u * s.cfg.wordBits + u.depthS * s.cfg.wordBits = s.depthS * s.cfg.wordBits := by
    rw [← Nat.add_mul, State.wordsDone, Nat.sub_add_cancel hp.words]
  rw [hp.bits, List.length_drop, hp.keeps.cfg] at hu
  rw [State.place]
  omega

theorem srBits_lt (hp : Packed s m ok u) : u.srBits.toNat < s.cfg.wordBits := by
  rw [← hp.keeps.cfg]
  exact hp.parts.srBits_lt

/-! The arguments of R158, at the last bit of the byte that completes next. -/

theorem lastBit_eq (hp : Packed s m ok u) (h : SoundParts s) (hbit : u.brBit.toNat = 7) : s.lastBit m = s.place u := by
  have hplace := hp.place_eq h
  have hs : s.brBit.toNat < 8 := s.brBit.isLt
  rw [State.lastBit]
  omega

/-- The bit packed next is bit number `SR.BITS` of the Word now packed (R152). -/
theorem place_div_mod (hp : Packed s m ok u) :
    s.place u / s.cfg.wordBits = s.wordsDone u ∧ s.place u % s.cfg.wordBits = u.srBits.toNat := by
  rw [Nat.div_mod_unique (Nat.zero_lt_of_lt hp.srBits_lt), State.place]
  exact ⟨by rw [Nat.mul_comm, Nat.add_comm], hp.srBits_lt⟩

theorem lastBitDone_eq (hp : Packed s m ok u) (h : SoundParts s) (hbit : u.brBit.toNat = 7)
    (ht : BitTaken u t done) : s.lastBitDone m = done := by
  rw [Bool.eq_iff_iff, ht.done_iff, State.lastBitDone, hp.lastBit_eq h hbit, hp.place_div_mod.2, beq_iff_eq,
    hp.keeps.cfg]

/-- The run places no bit of the Word before the Word's first, nor before its own first. -/
theorem max_le_place (hp : Packed s m ok u) : max (s.wordsDone u * s.cfg.wordBits) s.srBits.toNat ≤ s.place u :=
  Nat.max_le.2 ⟨Nat.le_add_right _ _, hp.begun⟩

theorem lastBitCount_eq (hp : Packed s m ok u) (h : SoundParts s) (hbit : u.brBit.toNat = 7) :
    s.lastBitCount m = s.placedHere u + 1 := by
  have hmax := hp.max_le_place
  rw [State.lastBitCount, hp.lastBit_eq h hbit, hp.place_div_mod.1, State.placedHere]
  omega

theorem lastBitRest_eq (hp : Packed s m ok u) (h : SoundParts s) (hbit : u.brBit.toNat = 7) (ht : BitTaken u t done) :
    s.lastBitRest m = if done then 0 else s.cfg.wordBits - (u.srBits.toNat + 1) := by
  rw [State.lastBitRest, hp.lastBit_eq h hbit, hp.place_div_mod.2]
  split
  · rename_i hdone
    rw [ht.done_iff.1 hdone, hp.keeps.cfg, Nat.sub_self]
  · rfl

/-- The byte a pass completes is the next of the bytes to send (R155). -/
theorem next_sentByte (hp : Packed s m ok u) (h : SoundParts s) (hbit : u.brBit.toNat = 7)
    (hwhole : 8 ≤ u.bitsToPack.length) (ht : BitTaken u t done) :
    s.sentBytes[m]? = some (u.completedByte done (s.placedHere u + 1)) := by
  have hm : m < s.bitsToPack.length / 8 := by
    rw [hp.bits, List.length_drop] at hwhole
    omega
  rw [sentBytes_getElem? hm, sentByte_eq_disambiguate, hp.lastBitDone_eq h hbit ht, hp.lastBitCount_eq h hbit,
    hp.lastBitRest_eq h hbit ht, State.completedByte, hp.bits, hp.keeps.cfg]

/-! One pass. -/

theorem place_succ (hp : Packed s m ok u) (ht : BitTaken u t done) :
    s.place t = s.place u + 1 ∧ t.depthS ≤ s.depthS := by
  have hwords := hp.words
  cases hdone : done with
  | true =>
    obtain ⟨hbits, hdepth⟩ := ht.finished hdone
    have hlast : u.srBits.toNat + 1 = s.cfg.wordBits := by rw [ht.done_iff.1 hdone, hp.keeps.cfg]
    have hdone' : s.wordsDone t = s.wordsDone u + 1 := by rw [State.wordsDone, State.wordsDone]; omega
    rw [State.place, State.place, hbits, hdone', Nat.add_mul]
    omega
  | false =>
    obtain ⟨hbits, -, hdepth⟩ := ht.unfinished hdone
    rw [State.place, State.place, State.wordsDone, State.wordsDone, hbits, hdepth]
    omega

theorem held {p : Pass} (hp : Packed s m true u) (ht : BitTaken u p.state p.done) (hparts : SoundParts p.state)
    (hkeeps : EncoderKeeps u p.state) (hheld : BitHeld u k p) : Packed s m p.ok p.state where
  parts := hparts
  keeps := hp.keeps.trans hkeeps
  words := (hp.place_succ ht).2
  begun := by rw [(hp.place_succ ht).1]; exact hp.begun.trans (Nat.le_succ _)
  whole := hp.whole
  bits := hheld.bits.trans hp.bits
  pushed := by rw [hheld.ok, hheld.bitRing]; exact hp.pushed
  count := by rw [hheld.count]; exact hp.count
  stopped := by rw [hheld.ok]; exact nofun

theorem completed {p : Pass} (hp : Packed s m true u) (h : SoundParts s) (hm : s.cfg.mode = .emitter)
    (hbit : u.brBit.toNat = 7) (ht : BitTaken u p.state p.done) (hparts : SoundParts p.state)
    (hkeeps : EncoderKeeps u p.state) (hbyte : ByteCompleted u (s.placedHere u) p) :
    Packed s (m + 1) p.ok p.state where
  parts := hparts
  keeps := hp.keeps.trans hkeeps
  words := (hp.place_succ ht).2
  begun := by rw [(hp.place_succ ht).1]; exact hp.begun.trans (Nat.le_succ _)
  whole := by
    have hwhole := hbyte.whole
    rw [hp.bits, List.length_drop] at hwhole
    omega
  bits := by rw [hbyte.bits, hp.bits, List.drop_drop, Nat.mul_succ]
  pushed := by
    have hpush := hbyte.pushed
    rw [hp.keeps.cfg, hp.count] at hpush
    rw [stream_succ (h.countBounded hm) (hp.next_sentByte h hbit hbyte.whole ht)]
    exact hp.pushed.append hpush
  count := by rw [hbyte.count, hp.count, hp.keeps.cfg, Nat.mod_add_mod, Nat.add_assoc]
  stopped := fun _ => ⟨hbyte.brBit, hbyte.encAcc, m, rfl, hp.pushed.ok_iff.1 rfl⟩

theorem mode_eq (hp : Packed s m ok u) (hm : s.cfg.mode = .emitter) : u.cfg.mode = .emitter := by rw [hp.keeps.cfg, hm]

/-- Every pass keeps the invariant (R151). -/
theorem pass (hp : Packed s m true u) (h : SoundParts s) (hstarted : s.started = true) (hm : s.cfg.mode = .emitter)
    (hunread : u.emptyS = false) :
    ∃ m', Packed s m' (u.nextPass (s.placedHere u)).ok (u.nextPass (s.placedHere u)).state := by
  have ht := nextPass_taken hp.parts hunread (s.placedHere u)
  have hkeeps := nextPass_keeps u (s.placedHere u)
  have hparts : SoundParts (u.nextPass (s.placedHere u)).state :=
    packBit_parts hp.parts (hp.keeps.started.trans hstarted) (hp.mode_eq hm) hunread hp.parts.nextReadS_lt _ _
  rcases brBit_cases u with hbit | hbit
  · exact ⟨m, hp.held ht hparts hkeeps (nextPass_held hp.parts hunread hbit _)⟩
  · exact ⟨m + 1, hp.completed h hm hbit ht hparts hkeeps (nextPass_completed hp.parts (hp.mode_eq hm) hunread hbit _)⟩

/-- Within a Word every pass counts its bit, and starts counting again after a byte (R151). -/
theorem pass_placedHere (hp : Packed s m true u) (hm : s.cfg.mode = .emitter) (hunread : u.emptyS = false)
    (hmore : (u.nextPass (s.placedHere u)).done = false) :
    (u.nextPass (s.placedHere u)).k = s.placedHere (u.nextPass (s.placedHere u)).state := by
  have ht := nextPass_taken hp.parts hunread (s.placedHere u)
  have hmax := hp.max_le_place
  obtain ⟨hplace, -⟩ := hp.place_succ ht
  obtain ⟨-, -, hdepth⟩ := ht.unfinished hmore
  have hwords : s.wordsDone (u.nextPass (s.placedHere u)).state = s.wordsDone u := by
    rw [State.wordsDone, hdepth, State.wordsDone]
  rcases brBit_cases u with hbit | hbit
  · have hheld := nextPass_held hp.parts hunread hbit (s.placedHere u)
    generalize u.nextPass (s.placedHere u) = p at hplace hwords hheld ⊢
    rw [hheld.k, State.placedHere, State.placedHere, hplace, hwords, hheld.brBit]
    omega
  · have hbyte := nextPass_completed hp.parts (hp.mode_eq hm) hunread hbit (s.placedHere u)
    rw [hbyte.k, State.placedHere, hbyte.brBit]
    exact (Nat.zero_min _).symm

end Packed

/-! ### One Word, and all of them (R151, R154) -/

/-- The passes over the oldest unread Word. -/
def State.packWord (s : State) (fuel k : Nat) : State × Bool :=
  encodeWord s.nextReadS (s.srBuf.read s.nextReadS.toNat) fuel k s

/-- A pass ends the Word, or stops for want of room, or goes on with the same Word. -/
theorem packWord_succ (h : SoundParts s) (hunread : s.emptyS = false) (fuel k : Nat) :
    s.packWord (fuel + 1) k =
      if (s.nextPass k).ok then
        if (s.nextPass k).done then ((s.nextPass k).state, true)
        else (s.nextPass k).state.packWord fuel (s.nextPass k).k
      else ((s.nextPass k).state, false) := by
  refine ite_congr rfl (fun _ => ite_congr rfl (fun _ => rfl) fun hmore => ?_) fun _ => rfl
  obtain ⟨-, hrd, -⟩ := (nextPass_taken h hunread k).unfinished (Bool.eq_false_of_not_eq_true hmore)
  have hkeeps := nextPass_keeps s k
  have hslot : (s.nextPass k).state.nextReadS = s.nextReadS := by
    rw [State.nextReadS, State.nextReadS, hrd, hkeeps.cfg]
  rw [State.packWord, hslot, hkeeps.srBuf]
  rfl

theorem packWord_packed (hp : Packed s m true u) (h : SoundParts s) (hstarted : s.started = true)
    (hm : s.cfg.mode = .emitter) (hunread : u.emptyS = false) {fuel : Nat}
    (hfuel : fuel + u.srBits.toNat = s.cfg.wordBits) :
    ∃ m', Packed s m' (u.packWord fuel (s.placedHere u)).2 (u.packWord fuel (s.placedHere u)).1 ∧
      ((u.packWord fuel (s.placedHere u)).2 = true →
        (u.packWord fuel (s.placedHere u)).1.srBits.toNat = 0 ∧
        (u.packWord fuel (s.placedHere u)).1.depthS + 1 = u.depthS) := by
  induction fuel generalizing u m with
  | zero => exact absurd hp.srBits_lt (by omega)
  | succ fuel ih =>
    obtain ⟨m', hp'⟩ := hp.pass h hstarted hm hunread
    have ht := nextPass_taken hp.parts hunread (s.placedHere u)
    rw [packWord_succ hp.parts hunread]
    cases hok : (u.nextPass (s.placedHere u)).ok <;> rw [hok] at hp'
    case false => exact ⟨m', hp', nofun⟩
    case true =>
      cases hdone : (u.nextPass (s.placedHere u)).done with
      | true => exact ⟨m', hp', fun _ => ht.finished hdone⟩
      | false =>
        obtain ⟨hbits, hrd, hdepth⟩ := ht.unfinished hdone
        have hkeeps := nextPass_keeps u (s.placedHere u)
        have hunread' : (u.nextPass (s.placedHere u)).state.emptyS = false := by
          rwa [emptyS_eq_false_iff, hkeeps.srWr, hrd, ← emptyS_eq_false_iff]
        have hrest := ih hp' hunread' (by rw [hbits]; omega)
        rw [← hp.pass_placedHere hm hunread hdone, hdepth] at hrest
        exact hrest

theorem placedHere_of_srBits (hbits : u.srBits.toNat = 0) : s.placedHere u = 0 := by
  rw [State.placedHere, State.place, hbits]
  omega

theorem encodeAll_succ (hunread : u.emptyS = false) (fuel : Nat) :
    encodeAll (fuel + 1) u =
      if (u.packWord (u.cfg.wordBits - u.srBits.toNat) 0).2 then
        encodeAll fuel (u.packWord (u.cfg.wordBits - u.srBits.toNat) 0).1
      else ((u.packWord (u.cfg.wordBits - u.srBits.toNat) 0).1, false) := by
  rw [encodeAll, if_neg (by rw [hunread]; exact Bool.false_ne_true)]
  rfl

theorem encodeAll_packed (hp : Packed s m true u) (h : SoundParts s) (hstarted : s.started = true)
    (hm : s.cfg.mode = .emitter) (hk : s.placedHere u = 0) {fuel : Nat} (hfuel : u.depthS = fuel) :
    ∃ m', Packed s m' (encodeAll fuel u).2 (encodeAll fuel u).1 ∧
      ((encodeAll fuel u).2 = true → (encodeAll fuel u).1.depthS = 0) := by
  induction fuel generalizing u m with
  | zero => exact ⟨m, hp, fun _ => hfuel⟩
  | succ fuel ih =>
    have hunread : u.emptyS = false := emptyS_eq_false_iff.2 fun he => by
      have hempty := (depth_eq_zero_iff _ _ hp.parts.srWr_lt hp.parts.srRd_lt).2 he
      exact absurd (hfuel.symm.trans hempty) (Nat.succ_ne_zero _)
    have hword := packWord_packed hp h hstarted hm hunread (fuel := u.cfg.wordBits - u.srBits.toNat)
      (by rw [hp.keeps.cfg]; exact Nat.sub_add_cancel hp.srBits_lt.le)
    rw [hk] at hword
    obtain ⟨m', hp', hconsumed⟩ := hword
    rw [encodeAll_succ hunread]
    cases hok : (u.packWord (u.cfg.wordBits - u.srBits.toNat) 0).2 <;> rw [hok] at hp'
    case false => exact ⟨m', hp', nofun⟩
    case true =>
      obtain ⟨hbits, hdepth⟩ := hconsumed hok
      exact ih hp' (placedHere_of_srBits hbits) (by omega)

end Run

/-! ### What a finished run has done (R157, R160, R164, R165) -/

section FinishedRun

variable {s t u : State} {m : Nat} {ok : Bool}

/-- A run of the Encoder from `s` that has come to its end in `u`: without overrun it has packed every Word (R151). -/
structure PackedAll (s : State) (m : Nat) (ok : Bool) (u : State) : Prop extends Packed s m ok u where
  drained : ok = true → u.depthS = 0

theorem encodeAll_packedAll (h : SoundParts s) (hm : s.cfg.mode = .emitter) (hactive : s.srState = .active) :
    ∃ m, PackedAll s m (encodeAll s.depthS s).2 (encodeAll s.depthS s).1 := by
  have hstart : s.placedHere s = 0 := by
    rw [State.placedHere, State.place, State.wordsDone, Nat.sub_self]
    omega
  obtain ⟨m, hp, hdrained⟩ := encodeAll_packed (.refl h hm) h (h.started hactive) hm hstart rfl
  exact ⟨m, hp, hdrained⟩

namespace PackedAll

/-- Without overrun only held bits are left, fewer than 8 (R164). -/
theorem heldBits_eq (hp : PackedAll s m true u) : u.heldBits = s.bitsToPack.drop (8 * m) := by
  rw [← hp.bits, bitsToPack_eq, wordBitsLeft_of_drained (hp.drained rfl), List.append_nil]

theorem length_bitsToPack (hp : PackedAll s m true u) : s.bitsToPack.length = 8 * m + u.brBit.toNat := by
  have hlen := congrArg List.length hp.heldBits_eq
  have hwhole := hp.whole
  rw [heldBits_length, List.length_drop] at hlen
  omega

theorem bytes_eq (hp : PackedAll s m true u) :
    m = s.bitsToPack.length / 8 ∧ u.brBit.toNat = s.bitsToPack.length % 8 := by
  have hlen := hp.length_bitsToPack
  have hlt : u.brBit.toNat < 8 := u.brBit.isLt
  omega

theorem stream_eq (hp : PackedAll s m true u) : s.stream m = s.outgoing := stream_all hp.bytes_eq.1.ge

theorem srRd_eq (hp : PackedAll s m true u) : u.srRd = s.srWr := by
  have hempty := (depth_eq_zero_iff _ _ hp.parts.srWr_lt hp.parts.srRd_lt).1 (hp.drained rfl)
  rw [← hempty, hp.keeps.srWr]

theorem srBits_eq (hp : PackedAll s m true u) : u.srBits = 0 := hp.parts.drained (hp.drained rfl)

/-- An UPDATE overruns exactly where the BitRing has no room for all there is to push (R157). -/
theorem ok_iff (hp : PackedAll s m ok u) (hcount : s.CountBounded) : ok = true ↔ s.outgoing.length ≤ s.roomB := by
  cases ok with
  | true =>
    rw [← hp.stream_eq]
    exact hp.pushed.ok_iff
  | false =>
    have hshort : s.roomB < s.outgoing.length :=
      hp.pushed.room_lt.trans_le (stream_isPrefix_outgoing hcount m).length_le
    exact ⟨nofun, fun hle => absurd hle (Nat.not_le.2 hshort)⟩

/-- What went in is as much of it, from the front, as there was room for (R157). -/
theorem unreadBytes_eq (hp : PackedAll s m ok u) (hcount : s.CountBounded) :
    u.unreadBytes = s.unreadBytes ++ s.outgoing.take s.roomB := by
  refine hp.pushed.unread.trans (congrArg (s.unreadBytes ++ ·) ?_)
  show (s.stream m).take s.roomB = s.outgoing.take s.roomB
  cases ok with
  | true => rw [hp.stream_eq]
  | false =>
    obtain ⟨rest, hrest⟩ := stream_isPrefix_outgoing hcount m
    rw [← hrest]
    exact (List.take_append_of_le_length hp.pushed.room_lt.le).symm

/-- After an overrun the ring is full (R157). -/
theorem fullB_eq (hp : PackedAll s m false u) : u.fullB = true := by
  have hroom : u.bitRing.room = 0 := hp.pushed.room.trans (Nat.sub_eq_zero_of_le hp.pushed.room_lt.le)
  exact beq_iff_eq.2 (hp.parts.bitRing.full_iff.2 hroom)

/-- The byte that overran is one of those to send (R157). -/
theorem lt_sentBytes (hp : PackedAll s m ok u) {n : Nat} (hn : m = n + 1) : n < s.sentBytes.length := by
  have hwhole := hp.whole
  rw [sentBytes_length]
  omega

/-- The Words consumed, the bits of the Word half packed, the bytes completed and the bits held add up (R164). -/
theorem conserves (hp : PackedAll s m ok u) (h : SoundParts s) :
    (s.depthS - u.depthS) * s.cfg.wordBits + u.srBits.toNat + s.brBit.toNat =
      8 * m + u.brBit.toNat + s.srBits.toNat := by
  have hplace := hp.place_eq h
  rw [State.place, State.wordsDone] at hplace
  omega

end PackedAll

/-- In a session of a sound Emitter UPDATE is the Encoder's (R150). -/
theorem update_emitter_next (h : SoundParts s) (hm : s.cfg.mode = .emitter) (hactive : s.srState = .active) :
    exec .update s = .next t ↔ encoderUpdate s = .next t := by
  refine execUpdate_next.trans ⟨?_, fun henc => ⟨h.wellFormed, .inr (.inl ⟨hactive, ?_, hm, henc⟩)⟩⟩
  · rintro ⟨-, ⟨hidle, -⟩ | ⟨-, -, -, henc⟩ | ⟨-, -, hreceiver, -⟩⟩
    · exact absurd hactive hidle
    · exact henc
    · exact absurd (hm.symm.trans hreceiver) (by decide)
  · exact ⟨h.srWr_lt, h.srRd_lt, h.srBits_lt, h.brWr_lt, h.brRd_lt⟩

/-- Whatever its outcome, an Encoder UPDATE leaves what its run leaves, and answers; with no Word to pack the run is
none (R151, R160). -/
theorem update_emitter_run (h : SoundParts s) (hm : s.cfg.mode = .emitter) (hactive : s.srState = .active)
    (hnext : exec .update s = .next t) : ∃ r, t = (encodeAll s.depthS s).1.respond r := by
  have henc := (update_emitter_next h hm hactive).1 hnext
  rcases encoderUpdate_next.1 henc with ⟨hempty, rfl⟩ | ⟨-, -, rfl⟩ | ⟨-, -, rfl⟩
  · have hdepth : s.depthS = 0 := (depth_eq_zero_iff _ _ h.srWr_lt h.srRd_lt).2 (beq_iff_eq.1 hempty)
    rw [hdepth]
    exact ⟨_, rfl⟩
  · exact ⟨_, rfl⟩
  · exact ⟨_, rfl⟩

/-- With a Word to pack UPDATE answers OK with READY, or OVERRUN, as its run went (R160). -/
theorem update_emitter_answers (h : SoundParts s) (hm : s.cfg.mode = .emitter) (hactive : s.srState = .active)
    (hunread : s.emptyS = false) :
    exec .update s = .next ((encodeAll s.depthS s).1.respond
      (if (encodeAll s.depthS s).2 then responseWord .ok true 0 else responseWord .overrun false 0)) := by
  refine (update_emitter_next h hm hactive).2 (encoderUpdate_next.2 (.inr ?_))
  cases hok : (encodeAll s.depthS s).2 with
  | true => exact .inl ⟨hunread, rfl, rfl⟩
  | false => exact .inr ⟨hunread, rfl, rfl⟩

theorem EncoderKeeps.respond_frame (h : EncoderKeeps s u) (r : ResponseWord) :
    u.respond r = { s with
      srRd := u.srRd, srBits := u.srBits, brBit := u.brBit, encAcc := u.encAcc,
      brWr := u.brWr, brBuf := u.brBuf, brBss := u.brBss, response := some r } :=
  congrArg (State.respond · r) h.frame

end FinishedRun

/-- Settles O45: a run with room for all of it ends without overrun, so it has packed every Word. -/
theorem encoderStreamsPackedBits : Obligations.EncoderStreamsPackedBits := by
  intro s hsound hm hactive hunread hroom
  have h := sound_iff_parts.1 hsound
  obtain ⟨m, hp⟩ := encodeAll_packedAll h hm hactive
  have hanswer := update_emitter_answers h hm hactive hunread
  have hok := (hp.ok_iff (h.countBounded hm)).2 hroom
  have hbytes := hp.unreadBytes_eq (h.countBounded hm)
  rw [List.take_of_length_le hroom] at hbytes
  rw [hok] at hp hanswer
  obtain ⟨hm', hbit⟩ := hp.bytes_eq
  exact ⟨_, hanswer, rfl, hbytes, hm' ▸ hp.heldBits_eq, hbit, hp.srRd_eq, hp.srBits_eq, hm' ▸ hp.count,
    hp.keeps.respond_frame _⟩

/-- Settles O44: the run overruns exactly without room for all of it, at the byte it completed last. -/
theorem encoderUpdateOutcomes : Obligations.EncoderUpdateOutcomes := by
  intro s hsound hm hactive
  have h := sound_iff_parts.1 hsound
  obtain ⟨m, hp⟩ := encodeAll_packedAll h hm hactive
  have hok_iff := hp.ok_iff (h.countBounded hm)
  have hanswer := update_emitter_answers h hm hactive
  refine ⟨fun hempty => ?_, fun hunread hroom => ?_, fun hunread hshort => ?_⟩
  · exact (update_emitter_next h hm hactive).2 (encoderUpdate_next.2 (.inl ⟨hempty, rfl⟩))
  · have hok := hok_iff.2 hroom
    rw [hok] at hp hanswer
    exact ⟨_, hanswer hunread, rfl, hp.srRd_eq, hp.srBits_eq⟩
  · have hok := Bool.eq_false_of_not_eq_true (mt hok_iff.1 (Nat.not_le.2 hshort))
    have hbytes := hp.unreadBytes_eq (h.countBounded hm)
    rw [hok] at hp hanswer
    obtain ⟨hbit, hacc, n, hn, hfits⟩ := hp.stopped rfl
    exact ⟨_, hanswer hunread, rfl, hacc, hbit, hp.fullB_eq, hbytes, n, hp.lt_sentBytes hn, hfits,
      hn ▸ hp.pushed.room_lt, hn ▸ hp.bits, hn ▸ hp.count⟩

/-- Settles O46: the run accounts for every bit it packs. -/
theorem encoderConservesBits : Obligations.EncoderConservesBits := by
  intro s t hsound hm hactive hnext
  have h := sound_iff_parts.1 hsound
  obtain ⟨m, hp⟩ := encodeAll_packedAll h hm hactive
  obtain ⟨r, rfl⟩ := update_emitter_run h hm hactive hnext
  exact ⟨hp.words, m, hp.conserves h, hp.count⟩

/-! ### The slots an Encoder UPDATE leaves alone (R76, R151) -/

section Slots

namespace RingView

variable {w : Nat} {r r' : RingView w}

/-- Writes raise the depth by as much as they move the write cursor. -/
theorem Filled.depth_eq (h : Filled r r') (hr : r.InRange) :
    r'.depth = r.depth + Machine.depth r'.wr r.wr r.cap := by
  obtain ⟨-, new, hnew, hunread⟩ := h.keepsUnread hr
  obtain ⟨hr', -⟩ := h.unread_eq hr
  rw [← hr'.length_unread, hunread, h.rd_eq, depth_self hr.rd_lt, List.drop_zero, List.length_append, hnew,
    hr.length_unread]

/-- Writes change only the slots after the old write cursor up to the new one. -/
theorem Filled.read_eq (h : Filled r r') (hr : r.InRange) {slot : Cursor}
    (hslot : slot = r.wr ∨ Machine.depth r'.wr r.wr r.cap < Machine.depth slot r.wr r.cap) :
    r'.buf.read slot.toNat = r.buf.read slot.toNat := by
  induction h with
  | none => rfl
  | @put r' hfilled hroom v ih =>
    obtain ⟨hr', -⟩ := hfilled.unread_eq hr
    have hput : (r'.put v).depth = r'.depth + 1 := depth_inc_write hr'.wr_lt hr'.rd_lt hr'.cap_le hroom
    have hbefore := hfilled.depth_eq hr
    have hafter := (hfilled.put hroom v).depth_eq hr
    have hself := depth_self hr.wr_lt
    have hmoved : Machine.depth (r'.put v).wr r.wr r.cap = Machine.depth r'.wr r.wr r.cap + 1 := by omega
    have hother : slot ≠ (r'.put v).wr := by
      rintro rfl
      rcases hslot with hwr | hbeyond
      · rw [hwr] at hmoved
        omega
      · exact Nat.lt_irrefl _ hbeyond
    refine (Memory.read_write_other _ _ fun he => hother (BitVec.eq_of_toNat_eq he)).trans (ih (hslot.imp_right ?_))
    omega

/-- Writes change only slots of the ring. -/
theorem Filled.read_eq_of_ge (h : Filled r r') (hr : r.InRange) {a : Nat} (ha : r.cap ≤ a) :
    r'.buf.read a = r.buf.read a := by
  induction h with
  | none => rfl
  | @put r' hfilled hroom v ih =>
    obtain ⟨hr', -⟩ := hfilled.unread_eq hr
    have hlt : (inc r'.wr r'.cap).toNat < r'.cap := inc_lt _ (Nat.zero_lt_of_lt hr'.wr_lt) hr'.cap_le
    rw [hfilled.cap_eq] at hlt
    refine (Memory.read_write_other _ _ fun he => ?_).trans ih
    rw [hfilled.cap_eq] at he
    omega

end RingView

end Slots

/-- Settles O47: the run writes bytes into the BitRing, none over an unread one, and outside a session nothing runs. -/
theorem encoderUpdateFrame : Obligations.EncoderUpdateFrame := by
  intro s t hsound hm hnext
  have h := sound_iff_parts.1 hsound
  by_cases hactive : s.srState = .active
  · obtain ⟨m, hp⟩ := encodeAll_packedAll h hm hactive
    have hfilled := (encodeAll_moves s.depthS s).bit
    obtain ⟨r, rfl⟩ := update_emitter_run h hm hactive hnext
    exact ⟨hp.keeps.respond_frame r, fun slot _ hslot => hfilled.read_eq h.bitRing hslot,
      fun a ha => hfilled.read_eq_of_ge h.bitRing ha, fun _ => hp.unreadBytes_eq (h.countBounded hm),
      fun hidle => absurd hactive hidle⟩
  · rcases (execUpdate_next.1 hnext).2 with ⟨-, rfl⟩ | ⟨hrunning, -⟩ | ⟨hrunning, -⟩
    · exact ⟨rfl, fun _ _ _ => rfl, fun _ _ => rfl, fun hrunning => absurd hrunning hactive, fun _ => rfl⟩
    · exact absurd hrunning hactive
    · exact absurd hrunning hactive

end Sys2Proof.Machine

/-! ## The Decoder (42_decoder.md R180 to R189)

What a Decoder UPDATE leaves is one of five states. Extraction moves bits, one at a time, from the front of the unread bits
to the low end of the Word. -/

namespace Sys2Proof.Machine

/-! ### What a Decoder UPDATE ends in (R180 to R186) -/

section Outcome

variable {s t : State}

/-- How a Decoder UPDATE ends (R186): phase 1 sees a marker, or the Decoder is not synchronized, or phase 2 has too few
bits, or it reads a Word's bits and finds the SampleRing full or not. -/
inductive DecoderOutcome (s : State) : State → Prop where
  | marker (hseen : s.markerSeen = true) :
      DecoderOutcome s (s.discardBytes.markSynchronized.respond (responseWord .noNewData false 0))
  | waiting (hunseen : s.markerSeen = false) (hsync : s.brSync = false) :
      DecoderOutcome s (s.discardBytes.respond (responseWord .syncWaiting false 0))
  | short (hunseen : s.markerSeen = false) (hsync : s.brSync = true) (hshort : s.avail < s.cfg.wordBits) :
      DecoderOutcome s (s.respond (responseWord .noNewData false 0))
  | overrun (hunseen : s.markerSeen = false) (hsync : s.brSync = true) (havail : s.cfg.wordBits ≤ s.avail)
      (hfull : s.fullS = true) :
      DecoderOutcome s ((extractBits s.cfg.wordBits 0 s).2.respond (responseWord .overrun false 0))
  | word (hunseen : s.markerSeen = false) (hsync : s.brSync = true) (havail : s.cfg.wordBits ≤ s.avail)
      (hroom : s.fullS = false) :
      DecoderOutcome s (((extractBits s.cfg.wordBits 0 s).2.putWord (extractBits s.cfg.wordBits 0 s).1).respond
        (responseWord .ok true 0))

/-- After a discard no bit is unread (R78, R183). -/
theorem discardBytes_avail (s : State) : s.discardBytes.avail = 0 := by
  simp [State.avail, State.depthB, depth]

theorem ExtractKeeps.fullS (h : ExtractKeeps s t) : t.fullS = s.fullS := by
  simp only [State.fullS, h.srWr, h.srRd, h.cfg]

/-- In phase 1 a marker leaves too few bits for phase 2; otherwise phase 1 changes nothing (R181). -/
theorem decoderUpdate_outcome (hbits : 1 ≤ s.cfg.wordBits) : decoderUpdate s = .next t ↔ DecoderOutcome s t := by
  rw [decoderUpdate_next]
  rcases synchronize_cases (s := s) with ⟨hseen, e⟩ | ⟨hunseen, e⟩ <;> rw [e]
  · have havail : s.discardBytes.markSynchronized.avail < s.cfg.wordBits := by
      show s.discardBytes.avail < _
      rw [discardBytes_avail]
      exact hbits
    constructor
    · rintro (⟨-, hword⟩ | ⟨hsync, -⟩)
      · rcases extractWord_next.1 hword with ⟨-, rfl⟩ | ⟨hlong, -⟩
        · exact .marker hseen
        · exact absurd havail (Nat.not_lt.2 hlong)
      · exact absurd hsync.symm Bool.false_ne_true
    · rintro (- | ⟨hunseen⟩ | ⟨hunseen⟩ | ⟨hunseen⟩ | ⟨hunseen⟩)
      · exact .inl ⟨rfl, extractWord_next.2 (.inl ⟨havail, rfl⟩)⟩
      all_goals exact absurd (hseen.symm.trans hunseen) (by decide)
  · have hroom := (extractBits_keeps s.cfg.wordBits 0 s).fullS
    constructor
    · rintro (⟨hsync, hword⟩ | ⟨hsync, rfl⟩)
      · rcases extractWord_next.1 hword with ⟨hshort, rfl⟩ | ⟨havail, hpush⟩
        · exact .short hunseen hsync hshort
        · rw [pushDecoded_next, hroom] at hpush
          rcases hpush with ⟨hfull, rfl⟩ | ⟨hfree, rfl⟩
          · exact .overrun hunseen hsync havail hfull
          · exact .word hunseen hsync havail hfree
      · exact .waiting hunseen hsync
    · rintro (⟨hseen⟩ | ⟨-, hsync⟩ | ⟨-, hsync, hshort⟩ | ⟨-, hsync, havail, hfull⟩ | ⟨-, hsync, havail, hfree⟩)
      · exact absurd (hseen.symm.trans hunseen) (by decide)
      · exact .inr ⟨hsync, rfl⟩
      · exact .inl ⟨hsync, extractWord_next.2 (.inl ⟨hshort, rfl⟩)⟩
      · exact .inl ⟨hsync, extractWord_next.2 (.inr ⟨havail, pushDecoded_next.2 (.inl ⟨hroom.trans hfull, rfl⟩)⟩)⟩
      · exact .inl ⟨hsync, extractWord_next.2 (.inr ⟨havail, pushDecoded_next.2 (.inr ⟨hroom.trans hfree, rfl⟩)⟩)⟩

/-- In a session of a Receiver UPDATE is the Decoder's (R150). -/
theorem update_receiver_next (hc : s.cfg.WellFormed) (hrange : s.InRange) (hm : s.cfg.mode = .receiver)
    (hactive : s.srState = .active) : exec .update s = .next t ↔ DecoderOutcome s t := by
  obtain ⟨⟨hbits, -⟩, -⟩ := id hc
  refine (execUpdate_next.trans ⟨?_, fun hdec => ⟨hc, .inr (.inr ⟨hactive, hrange, hm, hdec⟩)⟩⟩).trans
    (decoderUpdate_outcome hbits)
  rintro ⟨-, ⟨hidle, -⟩ | ⟨-, -, hemitter, -⟩ | ⟨-, -, -, hdec⟩⟩
  · exact absurd hactive hidle
  · exact absurd (hm.symm.trans hemitter) (by decide)
  · exact hdec

theorem SoundParts.inRange (h : SoundParts s) : s.InRange := ⟨h.srWr_lt, h.srRd_lt, h.srBits_lt, h.brWr_lt, h.brRd_lt⟩

theorem markerSeen_iff : s.markerSeen = true ↔ s.brWr ≠ s.brRd ∧ s.brBuf.read s.brWr.toNat = s.cfg.syncSignal := by
  simp [State.markerSeen, State.emptyB]

theorem markerSeen_eq_false_iff :
    s.markerSeen = false ↔ s.brWr = s.brRd ∨ s.brBuf.read s.brWr.toNat ≠ s.cfg.syncSignal := by
  rw [← Bool.not_eq_true, markerSeen_iff, not_and_or, not_not]

/-- The elements extraction may write, as one record (R180, R184). -/
theorem ExtractKeeps.frame (h : ExtractKeeps s t) :
    t = { s with brRd := t.brRd, brBit := t.brBit, brBss := t.brBss } := by
  rw [← h.srBuf, ← h.srWr, ← h.srRd, ← h.srBits, ← h.srState, ← h.brBuf, ← h.brWr, ← h.brSync, ← h.brState, ← h.encAcc,
    ← h.started, ← h.cfg, ← h.pending, ← h.resetLine, ← h.response, ← h.powerOns]

theorem ExtractKeeps.respond_frame (h : ExtractKeeps s t) (r : ResponseWord) :
    t.respond r = { s with brRd := t.brRd, brBit := t.brBit, brBss := t.brBss, response := some r } :=
  congrArg (State.respond · r) h.frame

theorem ExtractKeeps.nextWriteS (h : ExtractKeeps s t) : t.nextWriteS = s.nextWriteS := by
  rw [State.nextWriteS, State.nextWriteS, h.srWr, h.cfg]

theorem ExtractKeeps.putWord_frame (h : ExtractKeeps s t) (w : Word) (r : ResponseWord) :
    (t.putWord w).respond r = { s with
      srWr := s.nextWriteS, srBuf := s.srBuf.write s.nextWriteS.toNat w, brRd := t.brRd, brBit := t.brBit,
      brBss := t.brBss, response := some r } := by
  rw [← h.nextWriteS, ← h.srBuf]
  exact congrArg (fun u : State => { u with
    srWr := t.nextWriteS, srBuf := t.srBuf.write t.nextWriteS.toNat w, response := some r }) h.frame

end Outcome

/-- Settles O48: phase 1 sees the marker. -/
theorem decoderSynchronizesOnNewestMarker : Obligations.DecoderSynchronizesOnNewestMarker := by
  intro s hc hrange hm hactive hunread hmarker
  exact (update_receiver_next hc hrange hm hactive).2 (.marker (markerSeen_iff.2 ⟨hunread, hmarker⟩))

/-- Settles O49: phase 1 sees no marker, and there is no phase 2. -/
theorem unsynchronizedDecoderDiscardsBytes : Obligations.UnsynchronizedDecoderDiscardsBytes := by
  intro s hc hrange hm hactive hsync hunseen
  exact (update_receiver_next hc hrange hm hactive).2 (.waiting (markerSeen_eq_false_iff.2 hunseen) hsync)

/-- Settles O52: of the five states one has a Word put, and none has another element written. -/
theorem decoderUpdateFrame : Obligations.DecoderUpdateFrame := by
  intro s t hm hnext
  obtain ⟨hc, ⟨-, rfl⟩ | ⟨-, -, hemitter, -⟩ | ⟨hactive, hrange, -, -⟩⟩ := execUpdate_next.1 hnext
  · exact ⟨rfl, .inl ⟨rfl, rfl⟩⟩
  · exact absurd (hm.symm.trans hemitter) (by decide)
  · have hkeeps := extractBits_keeps s.cfg.wordBits 0 s
    cases (update_receiver_next hc hrange hm hactive).1 hnext with
    | marker => exact ⟨rfl, .inl ⟨rfl, rfl⟩⟩
    | waiting => exact ⟨rfl, .inl ⟨rfl, rfl⟩⟩
    | short => exact ⟨rfl, .inl ⟨rfl, rfl⟩⟩
    | overrun => rw [hkeeps.respond_frame]; exact ⟨rfl, .inl ⟨rfl, rfl⟩⟩
    | word =>
      rw [hkeeps.putWord_frame]
      exact ⟨rfl, .inr ⟨rfl, rfl, fun _ hslot => Memory.read_write_other _ _ hslot⟩⟩

/-! ### Extraction (R183, R184) -/

section Extraction

variable {s t u : State}

/-- A bit appended at the low end is the last of the value's low bits (R79). -/
theorem msbBits_append {w n : Nat} (v : BitVec w) (b : Bool) (hn : n + 1 ≤ w) :
    msbBits (n + 1) ((v <<< 1) ||| (BitVec.ofBool b).setWidth w) = msbBits n v ++ [b] := by
  rw [msbBits, List.range_succ, List.map_append, List.map_singleton, msbBits]
  refine congrArg₂ (· ++ ·) (List.map_congr_left fun j hj => ?_) ?_
  · have hlt : j < n := List.mem_range.1 hj
    have hplace : n - j - 1 = n - 1 - j := by omega
    simp [-BitVec.getLsbD_eq_getElem, hplace, show n - j < w by omega, show n - j ≠ 0 by omega]
  · simp [show 0 < w by omega]

/-- The unread bits of a ring that is not empty: those left of its oldest byte, then those of the others (R48). -/
theorem unreadBits_cons (h : SoundParts s) (hunread : s.emptyB = false) :
    s.unreadBits = (msbBits 8 (s.brBuf.read s.nextReadB.toNat)).drop s.brBit.toNat ++
      s.takeByte.unreadBytes.flatMap (msbBits 8) := by
  have hbit : s.brBit.toNat < 8 := s.brBit.isLt
  rw [State.unreadBits, h.unreadBytes_takeByte hunread, List.flatMap_cons,
    List.drop_append_of_le_length (by simpa using hbit.le)]

/-- `avail` is the number of unread bits (R183). -/
theorem unreadBits_length (h : SoundParts s) : s.unreadBits.length = s.avail := by
  have hlen : s.unreadBytes.length = s.depthB := h.bitRing.length_unread
  simp [State.unreadBits, State.avail, List.length_flatMap, hlen]

/-- The bit extraction reads next (R184). -/
def State.nextUnreadBit (s : State) : Bool := (s.brBuf.read s.nextReadB.toNat).getLsbD (7 - s.brBit.toNat)

/-- `t` is `s` with `n` bits read (R184). -/
structure BitsRead (s : State) (n : Nat) (t : State) : Prop where
  unread : t.unreadBits = s.unreadBits.drop n
  brRd : t.brRd.toNat = (s.brRd.toNat + (s.brBit.toNat + n) / 8) % s.cfg.capB
  brBit : t.brBit.toNat = (s.brBit.toNat + n) % 8
  brBss : t.brBss.toNat = min (s.brBss.toNat + (s.brBit.toNat + n) / 8) 65535

theorem BitsRead.zero (h : SoundParts s) : BitsRead s 0 s where
  unread := rfl
  brRd := by
    have hbit : s.brBit.toNat < 8 := s.brBit.isLt
    rw [Nat.add_zero, Nat.div_eq_of_lt hbit, Nat.add_zero, Nat.mod_eq_of_lt h.brRd_lt]
  brBit := (Nat.mod_eq_of_lt s.brBit.isLt).symm
  brBss := by
    have hbit : s.brBit.toNat < 8 := s.brBit.isLt
    have hbss : s.brBss.toNat < 65536 := s.brBss.isLt
    omega

theorem BitsRead.trans {m n : Nat} (h : BitsRead s m t) (hcfg : t.cfg = s.cfg) (k : BitsRead t n u) :
    BitsRead s (m + n) u := by
  have hbytes : (s.brBit.toNat + m) / 8 + (t.brBit.toNat + n) / 8 = (s.brBit.toNat + (m + n)) / 8 := by
    rw [h.brBit]
    omega
  refine ⟨?_, ?_, ?_, ?_⟩
  · rw [k.unread, h.unread, List.drop_drop]
  · rw [k.brRd, h.brRd, hcfg, Nat.mod_add_mod, Nat.add_assoc, hbytes]
  · rw [k.brBit, h.brBit, Nat.mod_add_mod, Nat.add_assoc]
  · rw [k.brBss, h.brBss, ← hbytes]
    omega

/-- One bit read is the first of the unread ones (R184). -/
theorem extractBit_read (h : SoundParts s) (hunread : s.emptyB = false) (w : Word) :
    (extractBit w s).1 = (w <<< 1) ||| (BitVec.ofBool s.nextUnreadBit).setWidth 24 ∧
      s.unreadBits = s.nextUnreadBit :: (extractBit w s).2.unreadBits ∧ BitsRead s 1 (extractBit w s).2 := by
  have hcap := h.capB_bounds
  have hbss : s.brBss.toNat < 65536 := s.brBss.isLt
  have hcons := unreadBits_cons h hunread
  rw [drop_msbBits _ s.brBit.isLt, List.cons_append] at hcons
  have hfirst (hrest : (extractBit w s).2.unreadBits =
      (msbBits 8 (s.brBuf.read s.nextReadB.toNat)).drop (s.brBit.toNat + 1) ++
        s.takeByte.unreadBytes.flatMap (msbBits 8)) :
      s.unreadBits = s.nextUnreadBit :: (extractBit w s).2.unreadBits := by rw [hcons, hrest]; rfl
  rcases extractBit_cases w s with ⟨hlast, e⟩ | ⟨hmore, e⟩ <;> rw [e] at hfirst ⊢
  · have hseven : s.brBit.toNat = 7 := by rw [hlast]; rfl
    have hbits := hfirst (by
      rw [hseven, List.drop_of_length_le (by simp)]
      rfl)
    refine ⟨rfl, hbits, by rw [hbits]; rfl, ?_, by rw [hseven]; rfl, ?_⟩
    · rw [hseven]
      exact toNat_inc s.brRd (by omega) (by omega)
    · rw [hseven, State.withCount_brBss, BitVec.toNat_ofNat]
      omega
  · have hlt : s.brBit.toNat < 7 := by bv_omega
    have hnext : (s.brBit + 1).toNat = s.brBit.toNat + 1 := by bv_omega
    have hbits := hfirst (by
      rw [← List.drop_append_of_le_length (by rw [msbBits_length]; omega), ← hnext, ← List.flatMap_cons,
        ← h.unreadBytes_takeByte hunread]
      rfl)
    have hsame : (s.brBit.toNat + 1) / 8 = 0 := by omega
    refine ⟨rfl, hbits, by rw [hbits]; rfl, ?_, ?_, ?_⟩
    · rw [hsame]
      exact (Nat.mod_eq_of_lt h.brRd_lt).symm
    · rw [State.withBit_brBit, hnext]
      omega
    · rw [hsame, State.withBit_brBss]
      omega

/-- Reading `n` bits takes the first `n` unread ones, and appends them to the Word in their order (R184). -/
theorem extractBits_read (h : SoundParts s) (hstarted : s.started = true) (hm : s.cfg.mode = .receiver)
    (hsync : s.brSync = true) {n k : Nat} (havail : n ≤ s.avail) (hwidth : k + n ≤ 24) (w : Word) :
    msbBits (k + n) (extractBits n w s).1 = msbBits k w ++ s.unreadBits.take n ∧
      BitsRead s n (extractBits n w s).2 := by
  induction n generalizing k w s with
  | zero => exact ⟨by simp [extractBits], .zero h⟩
  | succ n ih =>
    have hdepth := depthB_ne_zero_of_avail havail
    have hunread : s.emptyB = false :=
      emptyB_eq_false_iff.2 (mt (depth_eq_zero_iff _ _ h.brWr_lt h.brRd_lt).2 hdepth)
    have hkeeps := extractBit_keeps w s
    obtain ⟨hword, hbits, hone⟩ := extractBit_read h hunread w
    obtain ⟨hrest, hmany⟩ := ih (k := k + 1) (extractBit_parts h hstarted hm hsync hdepth w)
      (hkeeps.started.trans hstarted) (by rw [hkeeps.cfg, hm]) (hkeeps.brSync.trans hsync) (extractBit_avail h havail w)
      (by omega) (extractBit w s).1
    have hread := hone.trans hkeeps.cfg hmany
    rw [Nat.add_comm 1 n] at hread
    refine ⟨?_, hread⟩
    calc msbBits (k + (n + 1)) (extractBits (n + 1) w s).1
        = msbBits (k + 1 + n) (extractBits n (extractBit w s).1 (extractBit w s).2).1 := by
          rw [Nat.add_assoc, Nat.add_comm 1 n]; rfl
      _ = msbBits k w ++ [s.nextUnreadBit] ++ (extractBit w s).2.unreadBits.take n := by
          rw [hrest, hword, msbBits_append _ _ (by omega)]
      _ = msbBits k w ++ s.unreadBits.take (n + 1) := by
          rw [hbits, List.take_succ_cons, List.append_assoc, List.singleton_append]

/-- A synchronized Receiver with a Word's bits before it reads them as one Word of the build (R184). -/
theorem extractBits_word (h : SoundParts s) (hstarted : s.started = true) (hm : s.cfg.mode = .receiver)
    (hsync : s.brSync = true) (havail : s.cfg.wordBits ≤ s.avail) :
    (extractBits s.cfg.wordBits 0 s).1.toNat < 2 ^ s.cfg.wordBits ∧
      msbBits s.cfg.wordBits (extractBits s.cfg.wordBits 0 s).1 = s.unreadBits.take s.cfg.wordBits ∧
      BitsRead s s.cfg.wordBits (extractBits s.cfg.wordBits 0 s).2 := by
  obtain ⟨⟨-, hmax⟩, -⟩ := h.wellFormed
  have hlegal := extractBits_lt (w := 0) (m := 0) (by decide) s.cfg.wordBits s
  obtain ⟨hbits, hread⟩ := extractBits_read (k := 0) h hstarted hm hsync havail (by omega) 0
  rw [Nat.zero_add] at hlegal hbits
  exact ⟨hlegal, hbits, hread⟩

end Extraction

/-- Settles O50: the bits read are those of the Word put, and nothing else is written. -/
theorem decoderExtractsOneWord : Obligations.DecoderExtractsOneWord := by
  intro s hsound hm hactive hsync hunseen havail hroom
  have h := sound_iff_parts.1 hsound
  obtain ⟨hlegal, hbits, hread⟩ := extractBits_word h (h.started hactive) hm hsync havail
  have hkeeps := extractBits_keeps s.cfg.wordBits 0 s
  have hslot := hkeeps.nextWriteS
  refine ⟨_, (extractBits s.cfg.wordBits 0 s).1,
    (update_receiver_next h.wellFormed h.inRange hm hactive).2 (.word hunseen hsync havail hroom), rfl, hlegal, hbits,
    hread.unread, hslot, ?_, fun slot hother => ?_, hread.brRd, hread.brBit, hread.brBss, hkeeps.putWord_frame _ _ ▸ rfl⟩
  · rw [hkeeps.putWord_frame]
    exact Memory.read_write_same _ _ _
  · rw [hkeeps.putWord_frame]
    exact Memory.read_write_other _ _ hother

/-- Settles O51: the bits are read before the SampleRing is looked at. -/
theorem decoderOverrunConsumesTheBits : Obligations.DecoderOverrunConsumesTheBits := by
  intro s hsound hm hactive hsync hunseen havail hfull
  have h := sound_iff_parts.1 hsound
  obtain ⟨-, -, hread⟩ := extractBits_word h (h.started hactive) hm hsync havail
  exact ⟨_, (update_receiver_next h.wellFormed h.inRange hm hactive).2 (.overrun hunseen hsync havail hfull), rfl,
    hread.unread, (extractBits_keeps _ _ _).respond_frame _⟩

end Sys2Proof.Machine

/-! ## A Receiver fed byte by byte (42_decoder.md R189, R190)

Each byte is pushed and then seen by UPDATE as the newest. -/

namespace Sys2Proof.Machine

section Runs

variable {s t : State} {i : Instr}

theorem after_eq_some_iff {r : ResponseWord} : after i s = some (t, r) ↔ exec i s = .next t ∧ t.response = some r := by
  unfold after
  cases exec i s with
  | next u =>
    cases hresponse : u.response with
    | some r' =>
      simp only [hresponse, Option.some.injEq, Prod.mk.injEq, Host.Outcome.next.injEq]
      exact and_congr_right fun he => by rw [← he, hresponse, Option.some.injEq]
    | none =>
      simp only [hresponse, reduceCtorEq, Host.Outcome.next.injEq, false_iff]
      rintro ⟨rfl, hr⟩
      exact absurd (hresponse.symm.trans hr) (by simp)
  | fault r => simp
  | refused r => simp

theorem afterOk_eq_some_iff : afterOk i s = some t ↔ exec i s = .next t ∧ t.HasStatus .ok := by
  unfold afterOk
  cases hafter : after i s with
  | some p =>
    obtain ⟨u, r⟩ := p
    obtain ⟨hexec, hresponse⟩ := after_eq_some_iff.1 hafter
    have hstatus : u.HasStatus .ok ↔ statusField r = statusCode .ok := by simp [State.HasStatus, hresponse]
    rw [hexec, Host.Outcome.next.injEq, Option.ite_none_right_eq_some, Option.some.injEq, ← hstatus]
    constructor
    · rintro ⟨hok, rfl⟩
      exact ⟨rfl, hok⟩
    · rintro ⟨rfl, hok⟩
      exact ⟨hok, rfl⟩
  | none =>
    simp only [reduceCtorEq, false_iff]
    rintro ⟨hexec, r, hresponse, -⟩
    exact absurd (hafter.symm.trans (after_eq_some_iff.2 ⟨hexec, hresponse⟩)) (by simp)

/-- A port that answers with status OK has done its work. -/
theorem PortOutcome.hasStatus_ok {mode : Mode} {ring : RingState} {barred : Bool} {bar : Status} {data : BitVec 24}
    {done : State} (hport : PortOutcome mode ring barred bar data done s t) (hbar : bar ≠ .ok) (hok : t.HasStatus .ok) :
    barred = false ∧ t = done.respond (responseWord .ok false data) := by
  cases hport with
  | wrongMode => exact absurd (hasStatus_respond.1 hok) (by decide)
  | notActive => exact absurd (hasStatus_respond.1 hok) (by decide)
  | barred => exact absurd (hasStatus_respond.1 hok) hbar
  | done _ _ hb => exact ⟨hb, rfl⟩

theorem feed_cons {b : Byte} {bs : List Byte} {p q : State} {r : ResponseWord} {rs : List ResponseWord}
    (hpush : afterOk (.pushb b) s = some p) (hupdate : after .update p = some (q, r))
    (hrest : feed bs q = some (t, rs)) : feed (b :: bs) s = some (t, r :: rs) := by
  simp [feed, hpush, hupdate, hrest]

end Runs

section ReceiverSessions

variable {s t : State} {b : Byte}

/-- A sound Receiver in a session. -/
structure ReceiverRuns (s : State) : Prop where
  parts : SoundParts s
  mode : s.cfg.mode = .receiver
  active : s.srState = .active

/-- The state after a PUSHB that answers OK (R213). -/
def State.received (s : State) (b : Byte) : State := (s.putByte b).respond (responseWord .ok false 0)

@[simp] theorem State.received_srBuf (s : State) (b : Byte) : (s.received b).srBuf = s.srBuf := rfl
@[simp] theorem State.received_srWr (s : State) (b : Byte) : (s.received b).srWr = s.srWr := rfl
@[simp] theorem State.received_srRd (s : State) (b : Byte) : (s.received b).srRd = s.srRd := rfl
@[simp] theorem State.received_brSync (s : State) (b : Byte) : (s.received b).brSync = s.brSync := rfl
@[simp] theorem State.received_cfg (s : State) (b : Byte) : (s.received b).cfg = s.cfg := rfl

namespace ReceiverRuns

theorem started (h : ReceiverRuns s) : s.started = true := h.parts.started h.active

theorem update_next (h : ReceiverRuns s) : exec .update s = .next t ↔ DecoderOutcome s t :=
  update_receiver_next h.parts.wellFormed h.parts.inRange h.mode h.active

/-- PUSHB answers OK exactly where the BitRing has room (R213). -/
theorem pushb_ok_iff (h : ReceiverRuns s) : afterOk (.pushb b) s = some t ↔ s.fullB = false ∧ t = s.received b := by
  obtain ⟨hsame, -⟩ := h.parts.rings
  rw [afterOk_eq_some_iff]
  constructor
  · rintro ⟨hnext, hok⟩
    exact (execPushb_next.1 hnext).2.hasStatus_ok (by decide) hok
  · rintro ⟨hroom, rfl⟩
    exact ⟨execPushb_next.2 ⟨h.parts.wellFormed, .done h.mode (hsame.symm.trans h.active) hroom⟩, hasStatus_respond.2 rfl⟩

theorem received (h : ReceiverRuns s) (hroom : s.fullB = false) (b : Byte) : ReceiverRuns (s.received b) :=
  ⟨(h.parts.putByte h.started hroom b).respond _, h.mode, h.active⟩

theorem discarded (h : ReceiverRuns s) (r : ResponseWord) : ReceiverRuns (s.discardBytes.respond r) :=
  ⟨(h.parts.discardBytes h.started h.mode).respond r, h.mode, h.active⟩

theorem synchronized (h : ReceiverRuns s) (r : ResponseWord) :
    ReceiverRuns (s.discardBytes.markSynchronized.respond r) :=
  ⟨((h.parts.discardBytes h.started h.mode).markSynchronized h.started h.mode).respond r, h.mode, h.active⟩

end ReceiverRuns

theorem received_newest (s : State) (b : Byte) : (s.received b).brBuf.read (s.received b).brWr.toNat = b :=
  Memory.read_write_same _ _ _

/-- The byte just pushed is the newest, so phase 1 sees a marker exactly where it is one (R181). -/
theorem received_markerSeen_iff (hroom : s.fullB = false) : (s.received b).markerSeen = true ↔ b = s.cfg.syncSignal := by
  rw [markerSeen_iff, received_newest]
  exact and_iff_right (fullB_eq_false_iff.1 hroom)

theorem discardBytes_emptyB (s : State) : s.discardBytes.emptyB = true := beq_self_eq_true s.brWr

/-- An empty ring has room (R6, R75). -/
theorem SoundParts.fullB_of_emptyB (h : SoundParts s) (hempty : s.emptyB = true) : s.fullB = false := by
  have he : s.brWr = s.brRd := beq_iff_eq.1 hempty
  rw [fullB_eq_false_iff, ← he]
  exact inc_ne_self h.brWr_lt h.capB_bounds

end ReceiverSessions

/-! ### Acquiring synchronization (R181, R182, R189) -/

section Acquisition

variable {s u : State} {b : Byte}

/-- `u` is the unsynchronized Receiver `s` after bytes that all were discarded (R182). -/
structure AwaitsMarker (s u : State) : Prop extends ReceiverRuns u where
  cfg : u.cfg = s.cfg
  sync : u.brSync = false
  empty : u.emptyB = true
  srWr : u.srWr = s.srWr
  srRd : u.srRd = s.srRd
  srBuf : u.srBuf = s.srBuf

theorem AwaitsMarker.push (h : AwaitsMarker s u) (b : Byte) : afterOk (.pushb b) u = some (u.received b) :=
  h.pushb_ok_iff.2 ⟨h.parts.fullB_of_emptyB h.empty, rfl⟩

/-- A byte that is no marker is discarded (R182). -/
theorem AwaitsMarker.wait (h : AwaitsMarker s u) (hb : b ≠ s.cfg.syncSignal) :
    ∃ v, after .update (u.received b) = some (v, responseWord .syncWaiting false 0) ∧ AwaitsMarker s v := by
  have hroom := h.parts.fullB_of_emptyB h.empty
  have hruns := h.received hroom b
  have hunseen : (u.received b).markerSeen = false :=
    Bool.eq_false_of_not_eq_true (mt (received_markerSeen_iff hroom).1 (by rwa [h.cfg]))
  exact ⟨_, after_eq_some_iff.2 ⟨hruns.update_next.2 (.waiting hunseen h.sync), rfl⟩,
    { hruns.discarded _ with
      cfg := by simpa using h.cfg
      sync := by simpa using h.sync
      empty := discardBytes_emptyB _
      srWr := by simpa using h.srWr
      srRd := by simpa using h.srRd
      srBuf := by simpa using h.srBuf }⟩

/-- The marker synchronizes (R181). -/
theorem AwaitsMarker.synchronize (h : AwaitsMarker s u) :
    after .update (u.received s.cfg.syncSignal) =
      some ((u.received s.cfg.syncSignal).discardBytes.markSynchronized.respond (responseWord .noNewData false 0),
        responseWord .noNewData false 0) := by
  have hroom := h.parts.fullB_of_emptyB h.empty
  have hseen := (received_markerSeen_iff hroom).2 (congrArg Config.syncSignal h.cfg.symm)
  exact after_eq_some_iff.2 ⟨(h.received hroom _).update_next.2 (.marker hseen), rfl⟩

/-- The whole run: the Receiver waits at every byte before the marker (R189). -/
theorem AwaitsMarker.feed (h : AwaitsMarker s u) {bytes : List Byte} (hbytes : ∀ b ∈ bytes, b ≠ s.cfg.syncSignal) :
    ∃ v, AwaitsMarker s v ∧
      Machine.feed (bytes ++ [s.cfg.syncSignal]) u =
        some ((v.received s.cfg.syncSignal).discardBytes.markSynchronized.respond (responseWord .noNewData false 0),
          List.replicate bytes.length (responseWord .syncWaiting false 0) ++ [responseWord .noNewData false 0]) := by
  induction bytes generalizing u with
  | nil => exact ⟨u, h, feed_cons (h.push _) h.synchronize rfl⟩
  | cons b bytes ih =>
    obtain ⟨v, hwait, hawaits⟩ := h.wait (hbytes b (List.mem_cons_self ..))
    obtain ⟨v', hawaits', hrest⟩ := ih hawaits fun b' hb' => hbytes b' (List.mem_cons_of_mem b hb')
    exact ⟨v', hawaits', feed_cons (h.push b) hwait hrest⟩

end Acquisition

/-- Settles O53: the bytes before the marker leave the Receiver as they found it, but for the slots of the BitRing. -/
theorem synchronizationAcquiredAfterAnyPrefix : Obligations.SynchronizationAcquiredAfterAnyPrefix := by
  intro s bytes hsound hm hactive hsync hempty hbytes
  have hawaits : AwaitsMarker s s := ⟨⟨sound_iff_parts.1 hsound, hm, hactive⟩, rfl, hsync, hempty, rfl, rfl, rfl⟩
  obtain ⟨v, hv, hfeed⟩ := hawaits.feed hbytes
  exact ⟨_, hfeed, rfl, discardBytes_emptyB _, rfl, rfl, by simpa using hv.srWr, by simpa using hv.srRd,
    by simpa using hv.srBuf⟩

end Sys2Proof.Machine

/-! ## The round trip of one batch (42_decoder.md R190)

The Receiver's Words and its unread bits are, in order, the data bits it was sent. The markers add nothing to them and find
no bit unread, so that at the end the Words are the whole Words among the bits sent. -/

namespace Sys2Proof.Machine

/-! ### Bits and the values they make (R79, R80) -/

section Bits

/-- Bits appended one after the other are the low bits of the value made. -/
theorem msbBits_foldl {w m : Nat} (v : BitVec w) (bits : List Bool) (h : m + bits.length ≤ w) :
    msbBits (m + bits.length) (bits.foldl (fun v b => (v <<< 1) ||| (BitVec.ofBool b).setWidth w) v) =
      msbBits m v ++ bits := by
  induction bits generalizing m v with
  | nil => simp
  | cons b bits ih =>
    rw [List.length_cons, ← Nat.add_assoc, Nat.add_right_comm] at h ⊢
    rw [List.foldl_cons, ih _ h, msbBits_append _ _ (by omega), List.append_assoc, List.singleton_append]

theorem msbBits_byteOfBits {bits : List Bool} (h : bits.length = 8) : msbBits 8 (byteOfBits bits) = bits := by
  have hfold := msbBits_foldl (m := 0) (0 : Byte) bits (by omega)
  rw [Nat.zero_add, h] at hfold
  exact hfold

/-- Whole bytes hold the bits they were made of (R80). -/
theorem flatMap_bytesOfBits {n : Nat} {bits : List Bool} (h : 8 * n ≤ bits.length) :
    (bytesOfBits n bits).flatMap (msbBits 8) = bits.take (8 * n) := by
  induction n generalizing bits with
  | zero => simp [bytesOfBits]
  | succ n ih =>
    rw [bytesOfBits, List.flatMap_cons, msbBits_byteOfBits (by rw [List.length_take]; omega),
      ih (by rw [List.length_drop]; omega), Nat.mul_succ, Nat.add_comm, List.take_add]

/-- A value below `2 ^ n` is told by its low `n` bits. -/
theorem eq_of_msbBits_eq {w n : Nat} {u v : BitVec w} (hu : u.toNat < 2 ^ n) (hv : v.toNat < 2 ^ n)
    (h : msbBits n u = msbBits n v) : u = v := by
  apply BitVec.eq_of_getLsbD_eq
  intro i _
  by_cases hi : i < n
  · have hplace : n - 1 - (n - 1 - i) = i := by omega
    have hbit := congrArg (·[n - 1 - i]?) h
    simpa [-BitVec.getLsbD_eq_getElem, msbBits, hplace, show n - 1 - i < n by omega] using hbit
  · have hhigh {x : BitVec w} (hx : x.toNat < 2 ^ n) : x.getLsbD i = false :=
      Nat.testBit_lt_two_pow (hx.trans_le (Nat.pow_le_pow_right (by omega) (Nat.not_lt.1 hi)))
    rw [hhigh hu, hhigh hv]

variable {c : Config}

/-- The Words of `ws` are Words of the build (R30). -/
def LegalWords (c : Config) (ws : List Word) : Prop := ∀ w ∈ ws, w.toNat < 2 ^ c.wordBits

/-- The bits of a list of Words, in the order they are sent (R79). -/
def bitsOfWords (c : Config) (ws : List Word) : List Bool := ws.flatMap (msbBits c.wordBits)

theorem LegalWords.append {us ws : List Word} (hu : LegalWords c us) (hw : LegalWords c ws) : LegalWords c (us ++ ws) :=
  List.forall_mem_append.2 ⟨hu, hw⟩

theorem LegalWords.singleton {w : Word} (hw : w.toNat < 2 ^ c.wordBits) : LegalWords c [w] :=
  List.forall_mem_singleton.2 hw

theorem bitsOfWords_append (us ws : List Word) : bitsOfWords c (us ++ ws) = bitsOfWords c us ++ bitsOfWords c ws :=
  List.flatMap_append

theorem bitsOfWords_singleton (w : Word) : bitsOfWords c [w] = msbBits c.wordBits w := List.flatMap_singleton ..

theorem bitsOfWords_length (ws : List Word) : (bitsOfWords c ws).length = ws.length * c.wordBits := by
  simp [bitsOfWords, List.length_flatMap]

/-- Words whose bits stand at the front of the bits of others stand at the front of those (R79). -/
theorem isPrefix_of_bitsOfWords (hbits : 1 ≤ c.wordBits) {us ws : List Word} (hu : LegalWords c us) (hw : LegalWords c ws)
    (h : bitsOfWords c us <+: bitsOfWords c ws) : us <+: ws := by
  induction us generalizing ws with
  | nil => exact List.nil_prefix
  | cons u us ih =>
    cases ws with
    | nil =>
      have hle := h.length_le
      rw [bitsOfWords_length, bitsOfWords_length, List.length_cons, List.length_nil, Nat.succ_mul] at hle
      omega
    | cons w ws =>
      obtain ⟨rest, hrest⟩ := h
      rw [bitsOfWords, bitsOfWords, List.flatMap_cons, List.flatMap_cons, List.append_assoc] at hrest
      obtain ⟨hfirst, hothers⟩ := List.append_inj hrest (by simp)
      obtain ⟨hu₀, hu⟩ := List.forall_mem_cons.1 hu
      obtain ⟨hw₀, hw⟩ := List.forall_mem_cons.1 hw
      rw [eq_of_msbBits_eq hu₀ hw₀ hfirst, List.prefix_cons_inj]
      exact ih hu hw ⟨rest, hothers⟩

/-- Words whose bits, but for fewer than one Word's, are the first `n` bits of others are the whole Words among these. -/
theorem eq_take_of_bitsOfWords (hbits : 1 ≤ c.wordBits) {us ws : List Word} (hu : LegalWords c us) (hw : LegalWords c ws)
    {rest : List Bool} {n : Nat} (hn : n ≤ (bitsOfWords c ws).length)
    (h : bitsOfWords c us ++ rest = (bitsOfWords c ws).take n) (hshort : rest.length < c.wordBits) :
    us = ws.take (n / c.wordBits) := by
  have hlength : us.length * c.wordBits + rest.length = n := by
    have hlen := congrArg List.length h
    rwa [List.length_append, bitsOfWords_length, List.length_take, Nat.min_eq_left hn] at hlen
  have hcount : n / c.wordBits = us.length := by
    rw [← hlength, Nat.add_comm, Nat.add_mul_div_right _ _ hbits, Nat.div_eq_of_lt hshort, Nat.zero_add]
  have hfront : bitsOfWords c us <+: bitsOfWords c ws := (h ▸ List.prefix_append ..).trans (List.take_prefix ..)
  rw [hcount]
  exact List.prefix_iff_eq_take.1 (isPrefix_of_bitsOfWords hbits hu hw hfront)

end Bits

/-! ### What a Receiver has been sent (R184, R190) -/

section Receiving

variable {c : Config} {bits : List Bool} {s t : State}

/-- The Receiver's configuration (R190). -/
def asReceiver (c : Config) : Config := { c with mode := .receiver }

/-- A synchronized Receiver whose Words, and then its unread bits, are the data bits `bits` it was sent. -/
structure Receives (c : Config) (bits : List Bool) (s : State) : Prop extends ReceiverRuns s where
  cfg : s.cfg = asReceiver c
  sync : s.brSync = true
  legal : LegalWords c s.unreadWords
  bits : bitsOfWords c s.unreadWords ++ s.unreadBits = bits

/-- The same with fewer unread bits than a Word has, as UPDATE leaves it with NO_NEW_DATA (R183). -/
structure Received (c : Config) (bits : List Bool) (s : State) : Prop extends Receives c bits s where
  short : s.unreadBits.length < c.wordBits

theorem Receives.wordBits_eq (h : Receives c bits s) : s.cfg.wordBits = c.wordBits := by rw [h.cfg]; rfl

/-- A pushed byte adds its bits after the unread ones (R48). -/
theorem SoundParts.unreadBits_putByte (h : SoundParts s) (hm : s.cfg.mode = .receiver) (hroom : s.fullB = false)
    (b : Byte) : (s.putByte b).unreadBits = s.unreadBits ++ msbBits 8 b := by
  have hbit : s.brBit.toNat ≤ (s.unreadBytes.flatMap (msbBits 8)).length := by
    obtain ⟨-, -, hpartial, -⟩ := h.receiver hm
    have hlen : s.unreadBytes.length = s.depthB := h.bitRing.length_unread
    have hlt : s.brBit.toNat < 8 := s.brBit.isLt
    rcases Nat.eq_zero_or_pos s.depthB with hempty | hsome
    · simp [hpartial hempty]
    · simp only [List.length_flatMap, msbBits_length, List.map_const', List.sum_replicate, smul_eq_mul, hlen]
      omega
  rw [State.unreadBits, h.unreadBytes_putByte hroom, List.flatMap_append, List.flatMap_singleton,
    State.putByte_brBit, List.drop_append_of_le_length hbit, State.unreadBits]

theorem Receives.byte (h : Receives c bits s) (hroom : s.fullB = false) (b : Byte) :
    Receives c (bits ++ msbBits 8 b) (s.received b) where
  toReceiverRuns := h.received hroom b
  cfg := by simpa using h.cfg
  sync := by simpa using h.sync
  legal := h.legal
  bits := by
    have hunread : (s.received b).unreadBits = s.unreadBits ++ msbBits 8 b :=
      h.parts.unreadBits_putByte h.mode hroom b
    rw [hunread, ← List.append_assoc, ← h.bits]
    rfl

/-- Nothing is unread after a discard (R181). -/
theorem unreadBits_discardBytes (h : SoundParts s) : s.discardBytes.unreadBits = [] := by
  rw [State.unreadBits, ← State.unread_bitRing, State.bitRing_discardBytes, h.bitRing.unread_discard]
  rfl

/-- UPDATE moves a Word's bits from the unread bits to the Words, or finds too few (R183 to R185). -/
theorem Receives.update (h : Receives c bits s) (hdata : s.brBuf.read s.brWr.toNat ≠ c.syncSignal)
    (hnext : exec .update s = .next t) :
    (t.HasStatus .noNewData → Received c bits t) ∧
    (t.HasStatus .ok → Receives c bits t ∧ t.brBuf.read t.brWr.toNat ≠ c.syncSignal) := by
  have hsync := h.sync
  have hunseen : s.markerSeen = false := markerSeen_eq_false_iff.2 (.inr (by rw [h.cfg]; exact hdata))
  cases h.update_next.1 hnext with
  | marker hseen => exact absurd (hseen.symm.trans hunseen) (by decide)
  | waiting _ hwaits => exact absurd (hsync.symm.trans hwaits) (by decide)
  | short _ _ hshort =>
    rw [← unreadBits_length h.parts, h.wordBits_eq] at hshort
    exact ⟨fun _ => ⟨⟨⟨h.parts.respond _, h.mode, h.active⟩, h.cfg, h.sync, h.legal, h.bits⟩, hshort⟩,
      fun hok => absurd (hasStatus_respond.1 hok) (by decide)⟩
  | overrun =>
    exact ⟨fun hno => absurd (hasStatus_respond.1 hno) (by decide),
      fun hok => absurd (hasStatus_respond.1 hok) (by decide)⟩
  | word _ _ havail hroom =>
    refine ⟨fun hno => absurd (hasStatus_respond.1 hno) (by decide), fun _ => ?_⟩
    obtain ⟨hlegal, hword, hread⟩ := extractBits_word h.parts h.started h.mode h.sync havail
    have hkeeps := extractBits_keeps s.cfg.wordBits 0 s
    have hparts := extractBits_parts h.parts h.started h.mode h.sync havail 0
    generalize extractBits s.cfg.wordBits 0 s = p at hlegal hword hread hkeeps hparts hnext ⊢
    have hroom' : p.2.fullS = false := hkeeps.fullS.trans hroom
    have hwords : (p.2.putWord p.1).unreadWords = s.unreadWords ++ [p.1] := by
      rw [hparts.unreadWords_putWord hroom', ← State.unread_sampleRing, hkeeps.sampleRing, State.unread_sampleRing]
    rw [h.wordBits_eq] at hlegal hword hread
    have hmode : p.2.cfg.mode = .receiver := by rw [hkeeps.cfg, h.mode]
    refine ⟨⟨⟨exec_parts h.parts hnext, hmode, hkeeps.srState.trans h.active⟩, hkeeps.cfg.trans h.cfg,
      hkeeps.brSync.trans h.sync, ?_, ?_⟩, ?_⟩
    · exact hwords ▸ h.legal.append (.singleton hlegal)
    · show bitsOfWords c (p.2.putWord p.1).unreadWords ++ p.2.unreadBits = bits
      rw [hwords, bitsOfWords_append, bitsOfWords_singleton, hword, hread.unread, List.append_assoc, List.take_append_drop,
        h.bits]
    · show p.2.brBuf.read p.2.brWr.toNat ≠ _
      rwa [hkeeps.brBuf, hkeeps.brWr]

/-- `UPDATE until NO_NEW_DATA`, one UPDATE at a time (R300). -/
theorem drain_cases {n : Nat} (h : drain n s = some t) :
    ∃ u, exec .update s = .next u ∧
      (u.HasStatus .noNewData ∧ t = u ∨ u.HasStatus .ok ∧ ∃ m, n = m + 1 ∧ drain m u = some t) := by
  unfold drain at h
  cases hafter : after .update s with
  | none => simp [hafter] at h
  | some p =>
    obtain ⟨u, r⟩ := p
    obtain ⟨hexec, hresponse⟩ := after_eq_some_iff.1 hafter
    refine ⟨u, hexec, ?_⟩
    simp only [hafter] at h
    split at h
    · rename_i hno
      exact .inl ⟨⟨r, hresponse, hno⟩, (Option.some.inj h).symm⟩
    · split at h
      · rename_i hok
        cases n with
        | zero => simp at h
        | succ m => exact .inr ⟨⟨r, hresponse, hok⟩, m, rfl, h⟩
      · simp at h

/-- After a data byte the UPDATEs read Words until fewer bits than a Word's are left (R188). -/
theorem Receives.drain (h : Receives c bits s) (hdata : s.brBuf.read s.brWr.toNat ≠ c.syncSignal) {n : Nat}
    (hdrain : Machine.drain n s = some t) : Received c bits t := by
  induction n generalizing s with
  | zero =>
    obtain ⟨u, hnext, ⟨hno, rfl⟩ | ⟨-, m, hm, -⟩⟩ := drain_cases hdrain
    · exact (h.update hdata hnext).1 hno
    · exact absurd hm (Nat.succ_ne_zero m).symm
  | succ n ih =>
    obtain ⟨u, hnext, ⟨hno, rfl⟩ | ⟨hok, m, hm, hrest⟩⟩ := drain_cases hdrain
    · exact (h.update hdata hnext).1 hno
    · obtain ⟨hreceives, hdata'⟩ := (h.update hdata hnext).2 hok
      exact ih hreceives hdata' (Nat.succ.inj hm ▸ hrest)

/-- After a marker one UPDATE discards what was unread and keeps the Words (R181). -/
theorem drain_marker (h : ReceiverRuns s) (hcfg : s.cfg = asReceiver c) (hlegal : LegalWords c s.unreadWords)
    (hbits : 1 ≤ c.wordBits) (hseen : s.markerSeen = true) {n : Nat} (hdrain : drain n s = some t) :
    Received c (bitsOfWords c s.unreadWords) t := by
  obtain ⟨u, hnext, hends⟩ := drain_cases hdrain
  obtain rfl : u = s.discardBytes.markSynchronized.respond (responseWord .noNewData false 0) := by
    cases h.update_next.1 hnext with
    | marker => rfl
    | waiting hunseen => exact absurd (hseen.symm.trans hunseen) (by decide)
    | short hunseen => exact absurd (hseen.symm.trans hunseen) (by decide)
    | overrun hunseen => exact absurd (hseen.symm.trans hunseen) (by decide)
    | word hunseen => exact absurd (hseen.symm.trans hunseen) (by decide)
  rcases hends with ⟨-, rfl⟩ | ⟨hok, -⟩
  · have hunread := unreadBits_discardBytes h.parts
    exact ⟨⟨h.synchronized _, hcfg, rfl, hlegal, (congrArg (_ ++ ·) hunread).trans (List.append_nil _)⟩,
      (congrArg List.length hunread).trans_lt hbits⟩
  · exact absurd (hasStatus_respond.1 hok) (by decide)

theorem deliver_cons {b : Byte} {bs : List Byte} (h : deliver (b :: bs) s = some t) :
    ∃ p u, afterOk (.pushb b) s = some p ∧ drain 8 p = some u ∧ deliver bs u = some t := by
  rw [deliver] at h
  cases hpush : afterOk (.pushb b) s with
  | none => simp [hpush] at h
  | some p =>
    cases hdrain : drain 8 p with
    | none => simp [hpush, hdrain] at h
    | some u => exact ⟨p, u, rfl, hdrain, by simpa [hpush, hdrain] using h⟩

/-- A data byte delivered adds its bits (R190). -/
theorem Received.deliver_byte (h : Received c bits s) {b : Byte} (hb : b ≠ c.syncSignal) {bs : List Byte}
    (hdeliver : deliver (b :: bs) s = some t) : ∃ u, Received c (bits ++ msbBits 8 b) u ∧ deliver bs u = some t := by
  obtain ⟨p, u, hpush, hdrain, hrest⟩ := deliver_cons hdeliver
  obtain ⟨hroom, rfl⟩ := h.pushb_ok_iff.1 hpush
  exact ⟨u, (h.byte hroom b).drain (by rwa [received_newest]) hdrain, hrest⟩

/-- A marker delivered leaves the Words alone (R181). -/
theorem deliver_marker (h : ReceiverRuns s) (hcfg : s.cfg = asReceiver c) (hlegal : LegalWords c s.unreadWords)
    (hbits : 1 ≤ c.wordBits) {bs : List Byte} (hdeliver : deliver (c.syncSignal :: bs) s = some t) :
    ∃ u, Received c (bitsOfWords c s.unreadWords) u ∧ deliver bs u = some t := by
  obtain ⟨p, u, hpush, hdrain, hrest⟩ := deliver_cons hdeliver
  obtain ⟨hroom, rfl⟩ := h.pushb_ok_iff.1 hpush
  have hseen := (received_markerSeen_iff hroom).2 (congrArg Config.syncSignal hcfg.symm)
  have hmarked := drain_marker (s := s.received c.syncSignal) (h.received hroom _) hcfg hlegal hbits hseen hdrain
  exact ⟨u, hmarked, hrest⟩

/-- A marker at a Word boundary finds no bit unread (R163, R190). -/
theorem Received.deliver_marker (h : Received c bits s) (hbits : 1 ≤ c.wordBits) (hboundary : c.wordBits ∣ bits.length)
    {bs : List Byte} (hdeliver : deliver (c.syncSignal :: bs) s = some t) :
    ∃ u, Received c bits u ∧ deliver bs u = some t := by
  have hnone : s.unreadBits = [] := by
    have hlen := congrArg List.length h.bits
    rw [List.length_append, bitsOfWords_length] at hlen
    rw [← hlen, Nat.dvd_add_right (Nat.dvd_mul_left _ _)] at hboundary
    exact List.length_eq_zero_iff.1 (Nat.eq_zero_of_dvd_of_lt hboundary h.short)
  have hwords := h.bits
  rw [hnone, List.append_nil] at hwords
  rw [← hwords]
  exact Machine.deliver_marker h.toReceiverRuns h.cfg h.legal hbits hdeliver

/-- A run of data bytes with its markers adds the bits of the data bytes, where every marker that is due stands at a Word
boundary (R163, R190). -/
theorem Received.deliver_withMarkers (h : Received c bits s) (hbits : 1 ≤ c.wordBits) {bss : Nat} {ds : List Byte}
    (hdata : ∀ d ∈ ds, d ≠ c.syncSignal) (hbss : bss + 2 ≤ c.syncPeriod) (hplace : bits.length ≡ 8 * bss [MOD c.wordBits])
    (halign : c.wordBits ∣ 8 * (c.syncPeriod - 1) ∨ bss + ds.length < c.syncPeriod - 1)
    (hdeliver : deliver (withMarkers c bss ds) s = some t) : Received c (bits ++ ds.flatMap (msbBits 8)) t := by
  induction ds generalizing bss bits s with
  | nil =>
    obtain rfl : s = t := Option.some.inj hdeliver
    rwa [List.flatMap_nil, List.append_nil]
  | cons d ds ih =>
    obtain ⟨hd, hdata⟩ := List.forall_mem_cons.1 hdata
    have hplace' : (bits ++ msbBits 8 d).length ≡ 8 * (bss + 1) [MOD c.wordBits] := by
      rw [List.length_append, msbBits_length]
      exact hplace.add_right 8
    rw [List.flatMap_cons, ← List.append_assoc]
    rw [withMarkers] at hdeliver
    rw [List.length_cons] at halign
    split at hdeliver
    · have hlast : bss + 1 = c.syncPeriod - 1 := by omega
      have hwhole : c.wordBits ∣ 8 * (c.syncPeriod - 1) := halign.resolve_right (by omega)
      have hboundary : c.wordBits ∣ (bits ++ msbBits 8 d).length := (hplace'.dvd_iff dvd_rfl).2 (hlast ▸ hwhole)
      obtain ⟨u, hbyte, hdeliver⟩ := h.deliver_byte hd hdeliver
      obtain ⟨v, hmarker, hdeliver⟩ := hbyte.deliver_marker hbits hboundary hdeliver
      exact ih hmarker hdata (by omega) ((Nat.modEq_zero_iff_dvd).2 hboundary) (.inl hwhole) hdeliver
    · obtain ⟨u, hbyte, hdeliver⟩ := h.deliver_byte hd hdeliver
      exact ih hbyte hdata (by omega) hplace' (halign.imp_right (by omega)) hdeliver

end Receiving

/-! ### What an Emitter sends (R132, R151, R164) -/

section Sending

variable {s t : State} {ws : List Word}

/-- A START that answers OK has opened a session (R132). -/
theorem start_ok (h : afterOk .start s = some t) :
    t = s.zeroFill.markStarted.openSession.respond (responseWord .ok false 0) := by
  obtain ⟨hnext, hok⟩ := afterOk_eq_some_iff.1 h
  rcases (execStart_next_openSession.1 hnext).2 with ⟨-, rfl⟩ | ⟨-, -, rfl⟩ | ⟨-, -, rfl⟩
  · exact absurd (hasStatus_respond.1 hok) (by decide)
  · exact absurd (hasStatus_respond.1 hok) (by decide)
  · rfl

/-- A sound state right after START (R132). -/
structure JustStarted (s : State) : Prop where
  parts : SoundParts s
  active : s.srState = .active
  srBits : s.srBits = 0
  brBit : s.brBit = 0
  brBss : s.brBss = 0
  words : s.unreadWords = []

theorem justStarted (hs : SoundParts s) (h : afterOk .start s = some t) :
    JustStarted t ∧ t.cfg = s.cfg := by
  have hparts := exec_parts hs (afterOk_eq_some_iff.1 h).1
  obtain rfl := start_ok h
  have hopen := openSession_opened s.zeroFill.markStarted
  have hdepth : s.zeroFill.markStarted.openSession.depthS = 0 := by
    rw [State.depthS, hopen.srWr, hopen.srRd]
    simp [depth]
  have hwords : s.zeroFill.markStarted.openSession.unreadWords = [] := by
    rw [State.unreadWords, hdepth]
    rfl
  exact ⟨⟨hparts, hopen.srState, hopen.srBits, hopen.brBit, hopen.brBss, hwords⟩, hopen.cfg⟩

/-- After START the Emitter has its marker to send, and nothing else (R132, R159). -/
theorem unreadBytes_of_start (hc : s.cfg.WellFormed) (hm : s.cfg.mode = .emitter) (h : afterOk .start s = some t) :
    t.unreadBytes = [s.cfg.syncSignal] := by
  obtain ⟨-, -, -, hcap, -⟩ := hc
  obtain rfl := start_ok h
  have hopen := openSession_opened s.zeroFill.markStarted
  obtain ⟨hwr, hmarker, -⟩ := openSession_bitRing_emitter (s := s.zeroFill.markStarted) hm
  show s.zeroFill.markStarted.openSession.unreadBytes = _
  have hcapB : s.zeroFill.markStarted.openSession.cfg.capB = s.cfg.capB := congrArg Config.capB hopen.cfg
  have hdepth : depth 1 0 s.cfg.capB = 1 := by
    rw [depth_eq 1 0 (by simpa using Nat.lt_of_succ_le hcap.1) (zero_lt_of_bounds hcap)]
    rfl
  rw [State.unreadBytes, State.depthB, hwr, hopen.brRd, hcapB, hdepth, ringItems, inc_zero_of_bounds hcap]
  exact congrArg (· :: []) hmarker

/-- `t` is the Emitter `s` with the Words `ws` pushed (R211). -/
structure WordsPushed (s : State) (ws : List Word) (t : State) : Prop where
  parts : SoundParts t
  words : t.unreadWords = s.unreadWords ++ ws
  legal : LegalWords s.cfg ws
  srState : t.srState = s.srState
  srBits : t.srBits = s.srBits
  bitRing : t.bitRing = s.bitRing
  brBit : t.brBit = s.brBit
  brBss : t.brBss = s.brBss
  cfg : t.cfg = s.cfg

/-- A PUSHW that answers OK has put its Word, a legal one (R211). -/
theorem pushw_ok {w : Word} (h : afterOk (.pushw w) s = some t) :
    w.toNat < 2 ^ s.cfg.wordBits ∧ s.fullS = false ∧ t = (s.putWord w).respond (responseWord .ok false 0) := by
  obtain ⟨hnext, hok⟩ := afterOk_eq_some_iff.1 h
  rcases (execPushw_next.1 hnext).2 with ⟨hlegal, hport⟩ | ⟨-, rfl⟩
  · exact ⟨of_decide_eq_true hlegal, hport.hasStatus_ok (by decide) hok⟩
  · exact absurd (hasStatus_respond.1 hok) (by decide)

theorem sendWords_pushed (hs : SoundParts s) (h : sendWords ws s = some t) : WordsPushed s ws t := by
  induction ws generalizing s with
  | nil =>
    obtain rfl : s = t := Option.some.inj h
    exact ⟨hs, (List.append_nil _).symm, by simp [LegalWords], rfl, rfl, rfl, rfl, rfl, rfl⟩
  | cons w ws ih =>
    rw [sendWords] at h
    cases hpush : afterOk (.pushw w) s with
    | none => simp [hpush] at h
    | some u =>
      simp only [hpush] at h
      have hparts := exec_parts hs (afterOk_eq_some_iff.1 hpush).1
      obtain ⟨hlegal, hroom, rfl⟩ := pushw_ok hpush
      have hrest := ih hparts h
      have hwords : ((s.putWord w).respond (responseWord .ok false 0)).unreadWords = s.unreadWords ++ [w] :=
        hs.unreadWords_putWord hroom w
      exact {
        parts := hrest.parts
        words := by rw [hrest.words, hwords, List.append_assoc, List.singleton_append]
        legal := List.forall_mem_cons.2 ⟨hlegal, hrest.legal⟩
        srState := hrest.srState
        srBits := hrest.srBits
        bitRing := hrest.bitRing
        brBit := hrest.brBit
        brBss := hrest.brBss
        cfg := hrest.cfg }

/-- An Encoder UPDATE that answers OK has pushed all there is to push (R160). -/
theorem update_emitter_ok (h : SoundParts s) (hm : s.cfg.mode = .emitter) (hactive : s.srState = .active)
    (hok : afterOk .update s = some t) : t.unreadBytes = s.unreadBytes ++ s.outgoing := by
  obtain ⟨hnext, hstatus⟩ := afterOk_eq_some_iff.1 hok
  obtain ⟨m, hp⟩ := encodeAll_packedAll h hm hactive
  rcases encoderUpdate_next.1 ((update_emitter_next h hm hactive).1 hnext) with ⟨-, rfl⟩ | ⟨-, hall, rfl⟩ | ⟨-, -, rfl⟩
  · exact absurd (hasStatus_respond.1 hstatus) (by decide)
  · have hbytes := hp.unreadBytes_eq (h.countBounded hm)
    rwa [List.take_of_length_le ((hp.ok_iff (h.countBounded hm)).1 hall)] at hbytes
  · exact absurd (hasStatus_respond.1 hstatus) (by decide)

/-- Bytes none of which is the marker are sent as they are (R155). -/
theorem sentBytes_eq_dataBytes (h : ∀ d ∈ s.dataBytes, d ≠ s.cfg.syncSignal) : s.sentBytes = s.dataBytes := by
  refine List.ext_getElem (by simp) fun m _ hm => ?_
  have hbyte := h _ (List.getElem_mem hm)
  simp [State.sentBytes, sentByte_of_ne hbyte]

/-- Right after START the bits to pack are those of the Words pushed (R164). -/
theorem bitsToPack_of_justStarted (h : JustStarted s) (hp : WordsPushed s ws t) : t.bitsToPack = bitsOfWords s.cfg ws := by
  have hbit : t.brBit = 0 := hp.brBit.trans h.brBit
  have hbits : t.srBits = 0 := hp.srBits.trans h.srBits
  rw [bitsToPack_eq, heldBits_of_brBit hbit, State.wordBitsLeft, hbits, hp.words, h.words, hp.cfg]
  rfl

end Sending

/-! ### The batch (R190) -/

section Batch

variable {c : Config} {ws : List Word} {e₀ e₁ e₂ : State}

/-- A batch of Words right after START (R190): its Words are legal, and their bits are all there is to pack. -/
theorem batch_bitsToPack (hc : c.WellFormed) (hstart : afterOk .start (State.powerOn c 0) = some e₀)
    (hsend : sendWords ws e₀ = some e₁) : LegalWords c ws ∧ e₁.bitsToPack = bitsOfWords c ws := by
  obtain ⟨he₀, hcfg⟩ : JustStarted e₀ ∧ e₀.cfg = c := justStarted (powerOn_parts hc 0) hstart
  have hpushed := sendWords_pushed he₀.parts hsend
  rw [bitsToPack_of_justStarted he₀ hpushed, hcfg]
  exact ⟨hcfg ▸ hpushed.legal, rfl⟩

/-- What one UPDATE then leaves to deliver: the marker of START, and the data bytes with the markers due among them, where
no data byte is a marker (R155, R156). -/
theorem batch_unreadBytes (hc : c.WellFormed) (hm : c.mode = .emitter)
    (hstart : afterOk .start (State.powerOn c 0) = some e₀) (hsend : sendWords ws e₀ = some e₁)
    (hupdate : afterOk .update e₁ = some e₂) (hdata : ∀ d ∈ e₁.dataBytes, d ≠ c.syncSignal) :
    e₂.unreadBytes = c.syncSignal :: withMarkers c 0 e₁.dataBytes := by
  obtain ⟨he₀, hcfg₀⟩ : JustStarted e₀ ∧ e₀.cfg = c := justStarted (powerOn_parts hc 0) hstart
  have he₁ := sendWords_pushed he₀.parts hsend
  have hcfg : e₁.cfg = c := he₁.cfg.trans hcfg₀
  have hmarker : e₁.unreadBytes = [c.syncSignal] := by
    rw [← State.unread_bitRing, he₁.bitRing, State.unread_bitRing]
    exact unreadBytes_of_start hc hm hstart
  rw [update_emitter_ok he₁.parts (by rw [hcfg, hm]) (he₁.srState.trans he₀.active) hupdate, hmarker, State.outgoing,
    sentBytes_eq_dataBytes (by rwa [hcfg]), he₁.brBss, he₀.brBss, hcfg]
  rfl

/-- A Receiver right after START takes a marker and a run of data bytes with the markers due (R181, R190). -/
theorem received_of_start {r₀ r₁ : State} {ds : List Byte} (hc : c.WellFormed)
    (hstart : afterOk .start (State.powerOn (asReceiver c) 0) = some r₀) (hdata : ∀ d ∈ ds, d ≠ c.syncSignal)
    (halign : c.wordBits ∣ 8 * (c.syncPeriod - 1) ∨ ds.length < c.syncPeriod - 1)
    (hdeliver : deliver (c.syncSignal :: withMarkers c 0 ds) r₀ = some r₁) :
    Received c (ds.flatMap (msbBits 8)) r₁ := by
  obtain ⟨⟨hbits, -⟩, ⟨hperiod, -⟩, -⟩ := id hc
  have hc' : (asReceiver c).WellFormed := hc
  obtain ⟨hr₀, hcfg⟩ : JustStarted r₀ ∧ r₀.cfg = asReceiver c := justStarted (powerOn_parts hc' 0) hstart
  have hruns : ReceiverRuns r₀ := ⟨hr₀.parts, by rw [hcfg]; rfl, hr₀.active⟩
  obtain ⟨u, hsync, hrun⟩ := deliver_marker hruns hcfg (by simp [hr₀.words, LegalWords]) hbits hdeliver
  rw [hr₀.words] at hsync
  exact hsync.deliver_withMarkers hbits hdata (by omega) (.refl 0) (by rwa [Nat.zero_add]) hrun

end Batch

/-- Settles O54: the Emitter sends the marker and then the Words' bits in bytes, with markers at Word boundaries; the
Receiver's Words are the whole Words among the bits it was sent. -/
theorem roundTripOfOneBatch : Obligations.RoundTripOfOneBatch := by
  intro c words e₀ e₁ e₂ r₀ r₁ hc hm _ hstart hsend hupdate hdata halign hstart' hdeliver
  obtain ⟨⟨hbits, -⟩, -⟩ := id hc
  obtain ⟨hlegal, hpack⟩ := batch_bitsToPack hc hstart hsend
  have hlength : e₁.bitsToPack.length = words.length * c.wordBits := by rw [hpack, bitsOfWords_length]
  rw [← hlength] at hdata halign ⊢
  have hdata : ∀ d ∈ e₁.dataBytes, d ≠ c.syncSignal := hdata
  rw [batch_unreadBytes hc hm hstart hsend hupdate hdata] at hdeliver
  have hreceived := received_of_start hc hstart' hdata (by rwa [dataBytes_length]) hdeliver
  have hwhole : 8 * (e₁.bitsToPack.length / 8) ≤ e₁.bitsToPack.length := Nat.mul_div_le _ _
  have hend := hreceived.bits
  rw [State.dataBytes, flatMap_bytesOfBits hwhole, hpack] at hend
  rw [hpack] at hwhole ⊢
  exact eq_take_of_bitsOfWords hbits hreceived.legal hlegal hwhole hend hreceived.short

end Sys2Proof.Machine

/-! ## The ring ports (43_ring_ports.md R210 to R215)

A port checks its mode, then its ring, and only then does its work; each statement names the outcome it is about. -/

namespace Sys2Proof.Machine

section RingPorts

variable {s t : State}

/-- Once its Word is one of the build, PUSHW is a port like the others (R107 item 2, R211). -/
theorem execPushw_of_legal {word : Word} (hc : s.cfg.WellFormed) (hword : word.toNat < 2 ^ s.cfg.wordBits)
    (hport : PortOutcome .emitter s.srState s.fullS .overrun 0 (s.putWord word) s t) : execPushw word s = .next t :=
  execPushw_next.2 ⟨hc, .inl ⟨decide_eq_true hword, hport⟩⟩

/-- The bit cursors, counts and flags of the two states agree: the elements no port touches (R210). -/
def SameBitCounts (s t : State) : Prop :=
  t.srBits = s.srBits ∧ t.brBit = s.brBit ∧ t.encAcc = s.encAcc ∧ t.brSync = s.brSync ∧ t.brBss = s.brBss

theorem sameBitCounts_respond (s : State) (r : ResponseWord) : SameBitCounts s (s.respond r) := ⟨rfl, rfl, rfl, rfl, rfl⟩

theorem PortOutcome.sameBitCounts {mode : Mode} {ring : RingState} {barred : Bool} {bar : Status} {data : BitVec 24}
    {done : State} (hport : PortOutcome mode ring barred bar data done s t) (hdone : SameBitCounts s done) :
    SameBitCounts s t :=
  hport.preserves (P := SameBitCounts s) (fun _ _ h => h) ⟨rfl, rfl, rfl, rfl, rfl⟩ fun _ => hdone

theorem port_sameBitCounts {i : Instr} (hi : i = .popb ∨ i = .popw ∨ (∃ w, i = .pushw w) ∨ ∃ b, i = .pushb b)
    (hnext : exec i s = .next t) : SameBitCounts s t := by
  rcases hi with rfl | rfl | ⟨word, rfl⟩ | ⟨byte, rfl⟩
  · exact (execPopb_next.1 hnext).2.sameBitCounts ⟨rfl, rfl, rfl, rfl, rfl⟩
  · exact (execPopw_next.1 hnext).2.sameBitCounts ⟨rfl, rfl, rfl, rfl, rfl⟩
  · rcases (execPushw_next.1 hnext).2 with ⟨-, hport⟩ | ⟨-, rfl⟩
    · exact hport.sameBitCounts ⟨rfl, rfl, rfl, rfl, rfl⟩
    · exact sameBitCounts_respond s _
  · exact (execPushb_next.1 hnext).2.sameBitCounts ⟨rfl, rfl, rfl, rfl, rfl⟩

end RingPorts

/-- Settles O26: the mode is checked before the ring, both before any write; no port's work has a bit count in it. -/
theorem portChecksInOrder : Obligations.PortChecksInOrder := by
  intro s hc
  have hidle {ring : RingState} (h : ring = .inactive) : ring ≠ .active := by simp [h]
  refine ⟨fun hm => ?_, fun hm => ?_, fun i t hi hnext => port_sameBitCounts hi hnext⟩
  · have hother : s.cfg.mode ≠ .emitter := by simp [hm]
    exact ⟨fun _ hword => execPushw_of_legal hc hword (.wrongMode hother),
      execPopb_next.2 ⟨hc, .wrongMode hother⟩,
      fun hring _ => execPushb_next.2 ⟨hc, .notActive hm (hidle hring)⟩,
      fun hring => execPopw_next.2 ⟨hc, .notActive hm (hidle hring)⟩⟩
  · have hother : s.cfg.mode ≠ .receiver := by simp [hm]
    exact ⟨fun _ => execPushb_next.2 ⟨hc, .wrongMode hother⟩,
      execPopw_next.2 ⟨hc, .wrongMode hother⟩,
      fun hring _ hword => execPushw_of_legal hc hword (.notActive hm (hidle hring)),
      fun hring => execPopb_next.2 ⟨hc, .notActive hm (hidle hring)⟩⟩

/-- Settles O27: the next state is `putWord`'s, with the response. -/
theorem pushwWritesNextSlot : Obligations.PushwWritesNextSlot := by
  intro s word hc hword hm hactive hroom
  exact ⟨_, execPushw_of_legal hc hword (.done hm hactive hroom), rfl, rfl, Memory.read_write_same _ _ _,
    fun _ hslot => Memory.read_write_other _ _ hslot, rfl⟩

/-- Settles O28: the next state is `putByte`'s, with the response. -/
theorem pushbWritesNextSlot : Obligations.PushbWritesNextSlot := by
  intro s byte hc hm hactive hroom
  exact ⟨_, execPushb_next.2 ⟨hc, .done hm hactive hroom⟩, rfl, rfl, Memory.read_write_same _ _ _,
    fun _ hslot => Memory.read_write_other _ _ hslot, rfl⟩

/-- Settles O29: the next state is `takeByte`'s, with the response. -/
theorem popbAnswersNextByte : Obligations.PopbAnswersNextByte := by
  intro s hc hm hactive hunread
  exact execPopb_next.2 ⟨hc, .done hm hactive hunread⟩

/-- Settles O30: the next state is `takeWord`'s, with the response. -/
theorem popwAnswersNextWord : Obligations.PopwAnswersNextWord := by
  intro s hc hm hactive hunread
  exact execPopw_next.2 ⟨hc, .done hm hactive hunread⟩

/-- Settles O31: the full ring bars the push before its write. -/
theorem pushIntoFullRingOverruns : Obligations.PushIntoFullRingOverruns := by
  intro s hc
  exact ⟨fun hm hactive hfull _ hword => execPushw_of_legal hc hword (.barred hm hactive hfull),
    fun hm hactive hfull _ => execPushb_next.2 ⟨hc, .barred hm hactive hfull⟩⟩

end Sys2Proof.Machine

/-! ## Readback (44_readback.md R230 to R233)

RDREG answers the register at its index, and each register's value is the number of the element it shows, extended to the
24 bits of `DATA`; a slot in range is answered as it stands. -/

namespace Sys2Proof.Machine

section Readback

variable {s : State}

/-- Zero-extension to the 24 bits of `DATA` keeps the number. -/
theorem toNat_setWidth_data {w : Nat} (a : BitVec w) (hw : w ≤ 24 := by decide) : (a.setWidth 24).toNat = a.toNat :=
  BitVec.toNat_setWidth_of_le hw

/-- A parameter of 16 bits is shown in full (R6). -/
theorem toNat_ofNat_data {n : Nat} (hn : n ≤ 65535) : (BitVec.ofNat 24 n).toNat = n :=
  Nat.mod_eq_of_lt (by omega)

theorem toNat_flag (b : Bool) : ((BitVec.ofBool b).setWidth 24).toNat = b.toNat := by
  cases b <;> rfl

/-- Where `SYNC_SIGNAL`, `MODE` and `WORD_BITS` stand in CONFIG0 (R231): no two of them share a bit. -/
theorem toNat_config0Value {c : Config} (hc : c.WellFormed) :
    (config0Value c).toNat =
      c.wordBits + (if c.mode = .emitter then 0 else 2 ^ 5) + c.syncSignal.toNat * 2 ^ 8 := by
  obtain ⟨⟨-, hbits⟩, -⟩ := hc
  have hsignal : (c.syncSignal.setWidth 24).toNat = c.syncSignal.toNat := toNat_setWidth_data _
  have hmode : ((BitVec.ofBool (modeBit c.mode)).setWidth 24).toNat = (modeBit c.mode).toNat := toNat_flag _
  have hword : ((BitVec.ofNat 5 c.wordBits).setWidth 24).toNat = c.wordBits := by
    rw [toNat_setWidth_data, BitVec.toNat_ofNat, Nat.mod_eq_of_lt (by omega)]
  have hbit : (modeBit c.mode).toNat * 2 ^ 5 = if c.mode = .emitter then 0 else 2 ^ 5 := by
    cases c.mode <;> rfl
  have hle : (modeBit c.mode).toNat ≤ 1 := Bool.toNat_le _
  have hlow := toNat_shiftLeft_or (k := 5) ((BitVec.ofBool (modeBit c.mode)).setWidth 24)
    ((BitVec.ofNat 5 c.wordBits).setWidth 24) (by omega) (by omega)
  rw [config0Value, BitVec.or_assoc, toNat_shiftLeft_or _ _ (by omega) (by omega), hlow, hsignal, hmode, hword, ← hbit]
  omega

/-- The index of register `r` is answered with the number that `r` shows (R230). -/
theorem exec_rdreg_number (hc : s.cfg.WellFormed) {reg : BitVec 8} {v : Nat} (r : Reg)
    (hr : regMap.getD reg.toNat .config0 = r) (hv : (regValue s r).toNat = v) (hreg : reg.toNat ≤ 0x0F := by decide) :
    ∃ d : BitVec 24, exec (.rdreg reg) s = .next (s.respond (responseWord .ok false d)) ∧ d.toNat = v :=
  ⟨regValue s r, hr ▸ exec_rdreg hc hreg, hv⟩

end Readback

/-- Settles O36: register by register, each in a field of `DATA` that holds its number. -/
theorem rdregAnswersEachRegister : Obligations.RdregAnswersEachRegister := by
  intro s hc answers code
  have hcode (st : RingState) : ((ringStateCode st).setWidth 24).toNat = code st := by cases st <;> rfl
  have ⟨_, ⟨_, hperiod⟩, ⟨_, hcapS⟩, ⟨_, hcapB⟩, _⟩ := hc
  exact ⟨exec_rdreg_number hc .config0 rfl (toNat_config0Value hc),
    exec_rdreg_number hc .syncPeriod rfl (toNat_ofNat_data hperiod),
    exec_rdreg_number hc .srCap rfl (toNat_ofNat_data hcapS),
    exec_rdreg_number hc .brCap rfl (toNat_ofNat_data hcapB),
    exec_rdreg_number hc .srWr rfl (toNat_setWidth_data _),
    exec_rdreg_number hc .srRd rfl (toNat_setWidth_data _),
    exec_rdreg_number hc .srBits rfl (toNat_setWidth_data _),
    exec_rdreg_number hc .srState rfl (hcode _),
    exec_rdreg_number hc .brWr rfl (toNat_setWidth_data _),
    exec_rdreg_number hc .brRd rfl (toNat_setWidth_data _),
    exec_rdreg_number hc .brBit rfl (toNat_setWidth_data _),
    exec_rdreg_number hc .brState rfl (hcode _),
    exec_rdreg_number hc .brSync rfl (toNat_flag _),
    exec_rdreg_number hc .brBss rfl (toNat_setWidth_data _),
    exec_rdreg_number hc .encAcc rfl (toNat_setWidth_data _),
    exec_rdreg_number hc .session rfl (toNat_flag _)⟩

/-- Settles O37: the slot's range is the one check before the answer. -/
theorem peeksAnswerSlots : Obligations.PeeksAnswerSlots := by
  intro s slot hc
  exact ⟨fun hslot => execPeekw_next.2 ⟨hc, .inl ⟨decide_eq_true hslot, rfl⟩⟩,
    fun hslot => execPeekb_next.2 ⟨hc, .inl ⟨decide_eq_true hslot, rfl⟩⟩⟩

end Sys2Proof.Machine

/-! ## Responses, failed checks and progress (60_exceptions.md R250 to R256)

A command that goes on ends in one of three ways: with nothing written, with an outcome of its own that may have written
something, or done. What its response holds and when the state stays as it was are both read off these. -/

namespace Sys2Proof.Machine

/-- The commands whose OK carries data (R104, R212, R214, R230, R232, R233). -/
def Instr.AnswersData (i : Instr) : Prop :=
  i = .popb ∨ i = .popw ∨ (∃ n, i = .rdreg n) ∨ (∃ n, i = .peekw n) ∨ ∃ n, i = .peekb n

/-- How a command that goes on ends. -/
inductive CommandOutcome (i : Instr) (s : State) : State → Prop where
  /-- A failed check, or a ring that is empty or full at a port: nothing is written (R76, R77, R252). -/
  | unwritten {st : Status} (hok : st ≠ .ok) (halloc : st ≠ .allocFailure) :
      CommandOutcome i s (s.respond (responseWord st false 0))
  /-- An outcome of the operation itself: the writes made so far stand (R14, R251 step 6). -/
  | stopped (u : State) {st : Status} (hst : st ∈ [Status.syncWaiting, .noNewData, .overrun]) :
      CommandOutcome i s (u.respond (responseWord st false 0))
  /-- OK: READY is UPDATE's, data the readers' (R104, R256). -/
  | done (u : State) {ready : Bool} {data : BitVec 24} (hready : ready = true ↔ i = .update)
      (hdata : data ≠ 0 → Instr.AnswersData i) : CommandOutcome i s (u.respond (responseWord .ok ready data))

section Outcomes

variable {s t u : State} {i : Instr}

namespace CommandOutcome

/-- OK from a command that carries no data and is not UPDATE. -/
theorem done_plain (u : State) (hi : i ≠ .update) : CommandOutcome i s (u.respond (responseWord .ok false 0)) :=
  .done u (by simp [hi]) (absurd rfl)

/-- OK from a command that carries data. -/
theorem done_data (u : State) (data : BitVec 24) (hi : i ≠ .update) (hdata : Instr.AnswersData i) :
    CommandOutcome i s (u.respond (responseWord .ok false data)) :=
  .done u (by simp [hi]) fun _ => hdata

/-- OK from UPDATE. -/
theorem done_update (u : State) : CommandOutcome .update s (u.respond (responseWord .ok true 0)) :=
  .done u (by simp) (absurd rfl)

/-- START's and RESTART's last part. -/
theorem of_startMarker (hi : i ≠ .update) (h : startMarker u = .next t) : CommandOutcome i s t := by
  rcases startMarker_next.1 h with ⟨-, -, rfl⟩ | ⟨-, -, rfl⟩ | ⟨-, rfl⟩
  · exact done_plain _ hi
  · exact .stopped _ (by decide)
  · exact done_plain _ hi

theorem of_encoderUpdate (h : encoderUpdate s = .next t) : CommandOutcome .update s t := by
  rcases encoderUpdate_next.1 h with ⟨-, rfl⟩ | ⟨-, -, rfl⟩ | ⟨-, -, rfl⟩
  · exact .stopped _ (by decide)
  · exact done_update _
  · exact .stopped _ (by decide)

theorem of_decoderOutcome (h : DecoderOutcome s t) : CommandOutcome .update s t := by
  cases h with
  | marker => exact .stopped _ (by decide)
  | waiting => exact .stopped _ (by decide)
  | short => exact .stopped _ (by decide)
  | overrun => exact .stopped _ (by decide)
  | word => exact done_update _

/-- A ring port writes nothing unless it is done. -/
theorem of_port {mode : Mode} {ring : RingState} {barred : Bool} {bar : Status} {data : BitVec 24} {done : State}
    (h : PortOutcome mode ring barred bar data done s t) (hi : i ≠ .update) (hbar : bar = .overrun ∨ bar = .empty)
    (hdata : data ≠ 0 → Instr.AnswersData i) : CommandOutcome i s t := by
  cases h with
  | wrongMode => exact .unwritten (by decide) (by decide)
  | notActive => exact .unwritten (by decide) (by decide)
  | barred => rcases hbar with rfl | rfl <;> exact .unwritten (by decide) (by decide)
  | done => exact .done _ (by simp [hi]) hdata

end CommandOutcome

open CommandOutcome in
/-- Every command that goes on ends in one of the three ways. -/
theorem exec_outcome (h : exec i s = .next t) : CommandOutcome i s t := by
  cases i with
  | start =>
    rcases (execStart_next.1 h).2 with ⟨-, rfl⟩ | ⟨-, -, rfl⟩ | ⟨-, -, hmark⟩
    · exact .unwritten (by decide) (by decide)
    · exact .unwritten (by decide) (by decide)
    · exact of_startMarker (by simp) hmark
  | stop => rcases (execStop_next.1 h).2 with ⟨-, rfl⟩ | ⟨-, rfl⟩ <;> exact done_plain _ (by simp)
  | restart =>
    rcases (execRestart_next.1 h).2 with ⟨-, hmark⟩ | ⟨-, rfl⟩
    · exact of_startMarker (by simp) hmark
    · exact .unwritten (by decide) (by decide)
  | update =>
    obtain ⟨hc, ⟨-, rfl⟩ | ⟨-, -, -, henc⟩ | ⟨hactive, hrange, hm, -⟩⟩ := execUpdate_next.1 h
    · exact .unwritten (by decide) (by decide)
    · exact of_encoderUpdate henc
    · exact of_decoderOutcome ((update_receiver_next hc hrange hm hactive).1 h)
  | pushw word =>
    rcases (execPushw_next.1 h).2 with ⟨-, hport⟩ | ⟨-, rfl⟩
    · exact of_port hport (by simp) (.inl rfl) (absurd rfl)
    · exact .unwritten (by decide) (by decide)
  | popw => exact of_port (execPopw_next.1 h).2 (by simp) (.inr rfl) fun _ => by simp [Instr.AnswersData]
  | pushb byte => exact of_port (execPushb_next.1 h).2 (by simp) (.inl rfl) (absurd rfl)
  | popb => exact of_port (execPopb_next.1 h).2 (by simp) (.inr rfl) fun _ => by simp [Instr.AnswersData]
  | rdreg reg =>
    rcases (execRdreg_next.1 h).2 with ⟨-, rfl⟩ | ⟨-, rfl⟩
    · exact done_data _ _ (by simp) (by simp [Instr.AnswersData])
    · exact .unwritten (by decide) (by decide)
  | peekw slot =>
    rcases (execPeekw_next.1 h).2 with ⟨-, rfl⟩ | ⟨-, rfl⟩
    · exact done_data _ _ (by simp) (by simp [Instr.AnswersData])
    · exact .unwritten (by decide) (by decide)
  | peekb slot =>
    rcases (execPeekb_next.1 h).2 with ⟨-, rfl⟩ | ⟨-, rfl⟩
    · exact done_data _ _ (by simp) (by simp [Instr.AnswersData])
    · exact .unwritten (by decide) (by decide)

/-- Only OK and the outcomes of the operation itself may have written anything (R251, R252). -/
theorem exec_unchanged_of_status {st : Status} (h : exec i s = .next t) (hst : t.HasStatus st)
    (hfailed : st ∉ [Status.ok, .syncWaiting, .noNewData, .overrun]) : t = { s with response := t.response } := by
  cases exec_outcome h with
  | unwritten => rfl
  | stopped u hstopped =>
    obtain rfl := hasStatus_respond.1 hst
    exact absurd (List.mem_cons_of_mem _ hstopped) hfailed
  | done u =>
    obtain rfl := hasStatus_respond.1 hst
    exact absurd List.mem_cons_self hfailed

end Outcomes

/-- Settles O12: the sound state has a well-formed configuration and every cursor in its ring, so no command faults or
is refused. -/
theorem soundStateAlwaysSteps : Obligations.SoundStateAlwaysSteps := fun _ => sound_goesOn

/-- Settles O55: only the outcome `done` answers OK, and READY and data are what it allows. -/
theorem everyResponseIsWellFormed : Obligations.EveryResponseIsWellFormed := by
  intro s t i h
  cases exec_outcome h with
  | @unwritten st hok halloc => exact ⟨st, false, 0, rfl, halloc, by simp [hok], fun _ => rfl, absurd rfl⟩
  | @stopped u st hst =>
    have hok : st ≠ .ok := by rintro rfl; exact absurd hst (by decide)
    have halloc : st ≠ .allocFailure := by rintro rfl; exact absurd hst (by decide)
    exact ⟨st, false, 0, rfl, halloc, by simp [hok], fun _ => rfl, absurd rfl⟩
  | @done u ready data hready hdata =>
    exact ⟨.ok, ready, data, rfl, by decide, by simp [hready], absurd rfl, hdata⟩

/-- Settles O57: none of the seven statuses is one a command may have written something with. -/
theorem failedChecksChangeNothing : Obligations.FailedChecksChangeNothing := by
  intro s t i st ready data h hresponse hst
  have hfailed : ∀ st ∈ [Status.illegal, .wrongMode, .stateError, .notStarted, .notActive, .configError, .empty],
      st ∉ [Status.ok, .syncWaiting, .noNewData, .overrun] := by decide
  exact exec_unchanged_of_status h ((hasStatus_iff_of_response hresponse).2 rfl) (hfailed st hst)

end Sys2Proof.Machine

/-! ## Reset, and the step without a command (70_reset_and_hazards.md R280 to R282)

A reset leaves `State.powerOn`. What a command answers there is what it answers in any state whose rings are not Active and
that has not been started; the registers of the elements read 0. -/

namespace Sys2Proof.Machine

section Reset

variable {s : State}

/-- The reset input comes before every pending word (R280). -/
theorem step_of_resetLine (hc : s.cfg.WellFormed) (hline : s.resetLine = true) :
    step s = .next (State.powerOn s.cfg (s.powerOns + 1)) := by
  have htaken : take s = .reset := by simp [take, hline]
  rw [step, htaken]
  exact takeReset_next.2 ⟨hc, rfl⟩

/-- With nothing to take the step only withdraws the last response (R282; log 7). -/
theorem step_of_nothing_pending (hc : s.cfg.WellFormed) (hline : s.resetLine = false) (hpending : s.pending = []) :
    step s = .next s.unanswered := by
  have htaken : take s = .nothing := by simp [take, hline, hpending]
  rw [step, htaken]
  exact idle_next.2 ⟨hc, rfl⟩

/-- Every slot of a legal SampleRing reads as a Word of the build, listed or not (R30). -/
theorem read_srBuf_lt (h : s.WordsLegal) (slot : Nat) : (s.srBuf.read slot).toNat < 2 ^ s.cfg.wordBits := by
  obtain ⟨hcells, hfill⟩ := h
  simp only [List.all_eq_true, decide_eq_true_eq] at hcells
  have hpos : 0 < 2 ^ s.cfg.wordBits := Nat.two_pow_pos _
  cases hl : Memory.lookup s.srBuf.cells slot with
  | some v => simpa [Memory.read, hl] using hcells _ (Memory.mem_of_lookup hl)
  | none =>
    rcases hfill with hf | hf
    · simp [Memory.read, hl, Memory.unlisted, hf]
    · have hmod := Nat.mod_lt (Config.powerOnSlot 24 s.powerOns slot).toNat hpos
      simpa [Memory.read, hl, Memory.unlisted, hf] using (Nat.mod_le _ _).trans_lt hmod

/-- A port whose ring is not Active does no work: it answers for the mode, or for the ring (R210). -/
theorem portOutcome_of_not_active {mode : Mode} {ring : RingState} {barred : Bool} {bar : Status} {data : BitVec 24}
    {done : State} (hring : ring ≠ .active) :
    PortOutcome mode ring barred bar data done s
      (s.respond (responseWord (if s.cfg.mode = mode then .notActive else .wrongMode) false 0)) := by
  split
  · next hm => exact .notActive hm hring
  · next hm => exact .wrongMode hm

/-- After reset STOP has nothing to close (R136, R280). -/
theorem stop_powerOn {c : Config} (hc : c.WellFormed) (era : Nat) : AnswersOnly .stop (State.powerOn c era) .ok := by
  refine execStop_next.2 ⟨hc, ?_⟩
  cases hm : c.mode with
  | emitter => exact .inl ⟨hm, rfl⟩
  | receiver => exact .inr ⟨hm, rfl⟩

/-- From index 0x04 on the registers show elements, and every element is 0 after reset (R231, R280). -/
theorem regValue_powerOn (c : Config) (era : Nat) {n : Nat} (hlow : 0x04 ≤ n) (hhigh : n ≤ 0x0F) :
    regValue (State.powerOn c era) (regMap.getD n .config0) = 0 := by
  interval_cases n <;> rfl

end Reset

/-- Settles O8: what is taken is nothing. -/
theorem stepWithoutCommandChangesNothing : Obligations.StepWithoutCommandChangesNothing :=
  fun _ => step_of_nothing_pending

/-- Settles O9: the next state is `State.powerOn`'s, and its SampleRing is legal. -/
theorem resetClearsEverything : Obligations.ResetClearsEverything := by
  intro s hc hline
  have hparts : SoundParts (State.powerOn s.cfg (s.powerOns + 1)) := powerOn_parts hc _
  exact ⟨_, step_of_resetLine hc hline, rfl, rfl, rfl, rfl, rfl, rfl, rfl, rfl, rfl, rfl, rfl, rfl, rfl, rfl, rfl,
    read_srBuf_lt hparts.words⟩

/-- Settles O17: each command by the rule for a state that is not Active and not started; STOP finds nothing to clear. -/
theorem commandsAfterReset : Obligations.CommandsAfterReset := by
  intro c era hc s
  have hcfg : s.cfg.WellFormed := hc
  have hsr : s.srState ≠ .active := nofun
  have hbr : s.brState ≠ .active := nofun
  refine ⟨(startChecksInOrder s hcfg).2 hsr, fun hsize => ?_, stop_powerOn hc era,
    restartNeedsStart s hcfg rfl, updateNeedsActiveSession s hcfg hsr,
    fun _ hword => execPushw_of_legal hcfg hword (portOutcome_of_not_active hsr),
    execPopb_next.2 ⟨hcfg, portOutcome_of_not_active hbr⟩,
    fun _ => execPushb_next.2 ⟨hcfg, portOutcome_of_not_active hbr⟩,
    execPopw_next.2 ⟨hcfg, portOutcome_of_not_active hsr⟩, fun reg hlow hhigh => ?_,
    exec_rdreg hcfg (by decide), exec_rdreg hcfg (by decide), exec_rdreg hcfg (by decide),
    exec_rdreg_number hcfg .config0 rfl (toNat_config0Value hcfg),
    fun slot => (peeksAnswerSlots s slot hcfg).1, fun slot => (peeksAnswerSlots s slot hcfg).2⟩
  · obtain ⟨t, hstart, hresponse, -⟩ := startOpensSession s hcfg hsr hsize
    exact ⟨t, hstart, hresponse⟩
  · rw [AnswersOnly, exec_rdreg hcfg hhigh, regValue_powerOn c era hlow hhigh]

end Sys2Proof.Machine
